-- ==== Sys2Proof/Word.lean ====
section
/-! DEFINITION. The word types of the PL-7240 model and the plain names of its channels, ports and inlets. -/
namespace Sys2Proof

/-- One octet of a letter, a parcel, a fuse image or the store (R7). -/
abbrev Byte := BitVec 8

/-- One of the 32 tenants (Table 0.3). -/
abbrev Tenant := Fin 32

/-- A bus channel (R123). -/
inductive Chan where
  | a
  | b
deriving DecidableEq, Repr

/-- A courier port (R176). -/
inductive Port where
  | a
  | b
deriving DecidableEq, Repr

/-- The four inlets of a letter (R19), in the order of R271. -/
inductive Inlet where
  | channel (c : Chan)
  | courier (p : Port)
deriving DecidableEq, Repr

end Sys2Proof
end

