-- ==== Sys2Proof/Syntax.lean ====
section
/-! DEFINITION. The commands of the block: one constructor of `Instr` per row of spec/opcode_table.json, with the
measurements, octets and pin levels that come from outside the node as its operands. -/
namespace Sys2Proof

/-- What one coded strap gave at sampling: its four counts (R40), and whether the pin stood more than 2 % above the
reference (R42). -/
structure StrapReading where
  c0 : BitVec 12
  c1 : BitVec 12
  c2 : BitVec 12
  c3 : BitVec 12
  overRef : Bool
deriving DecidableEq, Repr

/-- Everything strap sampling reads (R31, R73): the 13 coded straps in the index order of Table 2.3, the level
that drives each of the four logic straps (`none`: the pin is open, R34), and the six value resistors in ohms in the index
order of R79 (`none`: open). -/
structure StrapSample where
  coded : Vector StrapReading 13
  hvsrc : Option Bool
  cpmode : Option Bool
  refsel : Option Bool
  fuseen : Option Bool
  values : Vector (Option Nat) 6
deriving DecidableEq, Repr

/-- The two resistors watched while the charger runs (R69). -/
inductive ChargerResistor where
  | vhset
  | ichg
deriving DecidableEq, Repr

/-- The value resistors in live analogue loops (Table 2.14, R681). -/
inductive LiveResistor where
  | vhset
  | ichg
  | vcomset
  | vlcdset
  | vlcdtc
deriving DecidableEq, Repr

/-- A correct bus frame as a channel receives it (R123); `ident` holds the 29-bit identifier of an extended frame;
`own` says that this node sent the frame itself (R172). -/
structure Frame where
  ext : Bool
  remote : Bool
  fd : Bool
  ident : BitVec 29
  data : List Byte
  own : Bool
deriving DecidableEq, Repr

/-- A detected bus error, by the step that ISO 11898-1:2015 gives the error counters (R155). -/
inductive BusError where
  /-- a receiver detects an error: REC + 1 -/
  | receiver
  /-- a receiver sees a dominant bit first after its error flag, or a dominant run: REC + 8 -/
  | receiverDominant
  /-- a transmitter sends an error flag, or sees a dominant run: TEC + 8; `rollcallData` marks a bit error in the
  data field of the channel's own ROLLCALL (R172) -/
  | transmitter (rollcallData : Bool)
  /-- a measured transmitter delay of `ns` nanoseconds at a data-phase rate with TDC (R131, R132) -/
  | transmitterDelay (ns : Nat)
  /-- an error that the standard's exceptions leave uncounted: an acknowledgement error of an error-passive
  transmitter, or a stuff error during arbitration -/
  | uncounted
deriving DecidableEq, Repr

/-- The key of a reassembly context (R217). -/
structure CtxKey where
  route : BitVec 2
  node : BitVec 7
  tenant : Tenant
  stream : BitVec 4
deriving DecidableEq, Repr

/-- What a fuse-mode command measures: VQPS in mV and the on-die temperature in °C (Table 3.8). -/
structure FuseEnv where
  vqps : Nat
  temp : Int
deriving DecidableEq, Repr

/-- What asks for an earmark (R436, R444): a POST by its job number, a render by its tile (32: the system rows),
a settling round by its block column and row, a cleaning round by the number of its torn rectangle. -/
inductive Asker where
  | post (job : Nat)
  | render (tile : Fin 33)
  | settling (col row : Nat)
  | cleaning (torn : Nat)
deriving DecidableEq, Repr

/-- Store words that a command read, by offset: those it could not correct, and those it corrected (R620 to R622). -/
structure Findings where
  lost : List Nat
  fixed : List Nat
deriving DecidableEq, Repr

/-- The events that fall into the three core cycles of an ACKNOWLEDGE's read-modify-write (R549, R550): those of its own
command, and those of so many commands after it. -/
structure AckRace where
  own : Bool
  later : Nat
deriving DecidableEq, Repr

/-- A boundary-scan instruction (R117), `other` standing for every one that is not named there. -/
inductive TapOp where
  | bypass
  | idcode
  | samplePreload
  | other
deriving DecidableEq, Repr

/-- The commands of the block, one per row of spec/opcode_table.json. -/
inductive Instr where
  -- supply, reset, cold start
  | vsysRestored
  | resetAsserted
  | resetNegated
  | strapSamplingEnd (r : StrapSample)
  | fuseArrayRead
  | stampDriveStart
  | coreSwitchToPll
  | pllLockTimeout
  | quickCheckEnd (found : Findings)
  | fullCheckEnd (found : Findings)
  | standbySettleEnd (c : Chan)
  | refclkLoss
  | inputLoss
  | closingTimeEnd
  | holdUpCollapse
  | fastDischargeEnd
  | collapseRestart
  | vioLoss
  | vioReturn
  -- rails, loops, resistors, die
  | hvgoodAsserted
  | hvgoodNegated
  | hvgoodTimeout
  | railsInRegulation
  | railOffTimer
  | boardLoopCheck (ohms : Nat)
  | stampLoopCheck (ohms : Nat)
  | chargerResistorFault (r : ChargerResistor) (ohms : Option Nat)
  | valueResistorDrift (r : LiveResistor) (ohms : Option Nat)
  /-- `mv`: VHOLD in mV -/
  | chargerPulse (mv : Nat)
  /-- `temp`: the power-die sensor in 1/16 °C -/
  | dieHot (temp : Int)
  -- power modes; `wake`: WAKE# is asserted at that moment (WATCH_ENTRY: or was in the 10 s before it)
  | quietEntry
  | watchEntry (wake : Bool)
  | wakeAsserted
  | dozeAsserted (wake : Bool)
  | dozeNegated
  | watchListenerAccept (c : Chan) (f : Frame)
  -- fuse mode
  | load (payload : List Byte)
  | check (e : FuseEnv)
  | burn (arming : List Byte) (e : FuseEnv)
  /-- `none`: every bit verified; `some (n, b)`: the burn stopped after `n` verified bits, the next one reading `b` -/
  | burnEnd (stop : Option (Nat × Bool))
  | read
  | state (e : FuseEnv)
  | badCommand (code : Byte)
  -- bus channels
  | busFrameReceived (c : Chan) (f : Frame)
  /-- `tie`: this letter completes in the same core cycle as the letter that completed before it (R271) -/
  | letterCompletion (c : Chan) (tie : Bool)
  | busError (c : Chan) (e : BusError)
  /-- `nonce`: as under INTEGRATION_END -/
  | busOffRecoveryEnd (c : Chan) (nonce : BitVec 32)
  | stuckDominant (c : Chan)
  | deadRecovery (c : Chan)
  /-- `dominant`: CRX still reads dominant (R161) -/
  | layUpEnd (c : Chan) (dominant : Bool)
  /-- `nonce`: what the noise source gives for this channel's roll call (R169) -/
  | integrationEnd (c : Chan) (nonce : BitVec 32)
  | rollcallDelayEnd (c : Chan)
  | rollcallWindowEnd (c : Chan)
  | rateMatchTimeout (c : Chan)
  | frameStart (c : Chan)
  | arbitrationLost (c : Chan)
  | txFrameEnd (c : Chan)
  | contextInactivity (c : Chan) (key : CtxKey)
  -- courier ports
  | csFall (p : Port)
  | courierSync (p : Port) (sync : Byte)
  /-- `hdr`: envelope octets 0x01 to 0x0B -/
  | courierLength (p : Port) (hdr : Vector Byte 11)
  /-- `rest`: the SI octets after those the two commands above have taken -/
  | csRise (p : Port) (rest : List Byte) (tie : Bool)
  -- judging
  | sealCheck
  | letterWalk (race : AckRace) (found : Findings)
  -- energy
  | earmarkRequest (who : Asker)
  | weighInTimer
  | vholdBelowGuard (mv : Nat)
  /-- `v0`: V0 in counts of 4.4 mV; `dv`: ΔV in counts of 0.25 µV; `ihv`: converter current in µA -/
  | weighInEnd (v0 dv ihv : Nat)
  -- rounds
  | partCopyStart (job : Nat)
  | partCopyEnd (job : Nat)
  /-- `loop`: the board crack loop in ohms, should this grant have to enable the rails (R454) -/
  | laneGrant (loop : Nat)
  | panelFrameStart (found : Findings)
  | roundWriteBackEnd (lane : Fin 64)
  | remapCopyEnd
  /-- `cut`: how many board rows a scan in progress has reached when the release cuts it, the row of the line in progress
  included; 0 in its fill line (R347A, R374) -/
  | releaseInstant (cut : Option Nat)
  | stageExpiry (lane : Fin 64)
  | stagedEarmarkLapse (job : Nat)
  | weighHoldExpiry (weigh : Nat)
  /-- the sixteen thermistor counts and the on-die sensor in 1/16 °C -/
  | rotationEnd (counts : Vector (BitVec 12) 16) (die : Int)
  | stalenessDeadline (t : Tenant)
  | cautionPeriodEnd (t : Tenant)
  | suspensionEnd (t : Tenant)
  | peekSnapshot (job : Nat) (found : Findings)
  | wavesetInstallStart
  /-- `matched`: the read-back equals the parcel -/
  | wavesetReadbackEnd (matched : Bool)
  -- stamp, notices, renders, TAP
  | stampFallback (n : Fin 32)
  | stampFieldUpdate
  | lcdVoltageDoze (die : Int)
  | systemRowsRender
  | noticeLoad
  | rependTest (g : Fin 8)
  | energyShortTimer
  | renderWaitTimer (tile : Fin 33)
  | tapInstruction (op : TapOp) (ir : Byte)
  | railDisableEnd
  | resetSequenceEnd
deriving DecidableEq, Repr

end Sys2Proof
end

