-- ==== Sys2Proof/WellFormed.lean ====
section
/-! DEFINITION. Which commands the outside world can spell: what the types of `Instr` leave wider than the spec. A meaning
does not rely on these checks; it is total on every command. -/
namespace Sys2Proof

/-- The lengths of a bus frame's data field: classical CAN and CAN FD (R123). -/
def frameLengths (fd : Bool) : List Nat :=
  if fd then [0, 1, 2, 3, 4, 5, 6, 7, 8, 12, 16, 20, 24, 32, 48, 64] else [0, 1, 2, 3, 4, 5, 6, 7, 8]

/-- A base-format identifier has 11 bits, a remote frame carries no data and is classical, and the data field has a length
that ISO 11898-1:2015 gives (R123, Table 4.1). -/
def Frame.wf (f : Frame) : Bool :=
  (f.ext || f.ident.toNat < 2 ^ 11) && (!f.remote || (f.data.isEmpty && !f.fd))
    && (frameLengths f.fd).contains f.data.length

/-- Offsets of store words: 64-bit words below the region that is never read or written (R612, Table 15.1). -/
def wordsWf (words : List Nat) : Bool := words.all fun o => o % 8 = 0 && o < 0x01D00000

/-- No word is both corrected and beyond correction (R620). -/
def Findings.wf (f : Findings) : Bool := wordsWf f.lost && wordsWf f.fixed && f.fixed.all fun o => !(f.lost.contains o)

/-- Store words that a command names (R621, R622). -/
def Instr.findings : Instr → Findings
  | .quickCheckEnd f => f
  | .fullCheckEnd f => f
  | .panelFrameStart f => f
  | .letterWalk _ f => f
  | .peekSnapshot _ f => f
  | _ => ⟨[], []⟩

/-- Columns and rows of settling blocks, 256 by 64 pixels, on the largest board, 4,096 by 3,072 pixels (R417). -/
def Asker.wf : Asker → Bool
  | .post _ | .render _ | .cleaning _ => true
  | .settling col row => col < 16 && row < 48

/-- What the types of the other operands leave too wide. -/
def Instr.operandsWf : Instr → Bool
  | .watchListenerAccept _ f => f.wf && !f.own
  | .busFrameReceived _ f => f.wf
  | .earmarkRequest who => who.wf
  | .releaseInstant cut => cut.all (· ≤ 3072)
  | _ => true

/-- The command is one that the outside world can spell. -/
def Instr.wf (i : Instr) : Bool := i.findings.wf && i.operandsWf

end Sys2Proof
end

