-- ==== Sys2Proof/Config.lean ====
section
/-! DEFINITION. What the spec leaves open and one part fixes: constants without a body, so that no proof can use a value of
one. Each is named in the assumption log. -/
namespace Sys2Proof

/-- FREE VALUE (log 7). The drive code that a ROM set proposes for class, mode, band, old value, new value and frame
(1 first): Table 10.2 gives the lengths and the tails' net drive, no table gives the codes. -/
opaque Config.romDrive : Nat → Nat → Nat → Nat → Nat → Nat → BitVec 2

/-- FREE VALUE (log 7). The code that a ROM set proposes for class, band, value, tail (`true`: P-tail) and frame. -/
opaque Config.romTail : Nat → Nat → Nat → Bool → Nat → BitVec 2

/-- FREE VALUE (log 8). Whether the store die's sensor last read above 85 °C (R625) at the n-th count advance: no row
of the opcode table reports that sensor. -/
opaque Config.storeHot : Nat → Bool

/-- FREE VALUES (log 75). How far the store writes had come that the n-th loss of power cuts (R467, R618): which words of a
write in progress hold their new value, the whole rows of a write-back by lane, whether copy A of the remap table has the
entry in work (R630), and whether a MAP (R306) and a READING (R484) were being written. -/
opaque Config.cutWord : Nat → Nat → Bool
opaque Config.cutRows : Nat → Fin 64 → Nat
opaque Config.cutEntry : Nat → Bool
opaque Config.cutBox : Nat → Bool
opaque Config.cutReading : Nat → Bool

/-- FREE VALUE (log 9). The ink of the built-in font: character code, column 0 to 7, row 0 to 15. -/
opaque Config.glyph : Nat → Nat → Nat → Bool

/-- FREE VALUE (log 9). The ink of the 16 × 16 alarm symbol. -/
opaque Config.alarmSymbol : Nat → Nat → Bool

/-- FREE VALUE (log 9). The ink of a 5-pixel min or max triangle (`true`: max), by column and row. -/
opaque Config.markTriangle : Bool → Nat → Nat → Bool

/-- FREE VALUE (log 9). Whether a slanted 1-pixel line from one trend point to the next inks a pixel of their box, the columns
of the two points included. -/
opaque Config.trendLine : (dx : Nat) → (dy : Int) → (x : Nat) → (y : Int) → Bool

/-- FREE VALUE (log 10). REC after a correct reception above 127, as an offset into the standard's 119 to 127. -/
opaque Config.recFall : Nat → Nat

/-- The variant of Table 0.1: `true` for the PL-7240-X, whose DIE_HOT limit is 115 °C (R676). -/
opaque Config.variantX : Bool

end Sys2Proof
end

