-- ==== Sys2Proof/Machine/State.lean ====
section
/-! DEFINITION. The state of the PL-7240 as plain data: every register, counter, buffer, queue, timer, latch and store
structure the spec gives the node, and the queue of waiting commands. Times are uptime in ms (R576), energies are in
femtojoules, temperatures in 1/16 °C unless a field says otherwise. -/
namespace Sys2Proof.Machine

/-- No command of the table ends in a fault: the spec gives every one an effect or says that its event cannot occur,
and then nothing changes (log 1). -/
inductive Fault where
deriving DecidableEq, Repr

/-- Why a command has no meaning. -/
inductive Refusal where
  /-- Raised by the dispatch arm of a row that has no meaning yet. Safe: the machine stops. -/
  | notModelled (mnemonic : String)
deriving DecidableEq, Repr

/-- A rectangle of board or canvas pixels, all four edges included. -/
structure Rect where
  x0 : Nat
  y0 : Nat
  x1 : Nat
  y1 : Nat
deriving DecidableEq, Repr

/-- Power modes (Table 14.3), with the two conditions outside it: held in reset (R602), and the cold start of
Table 14.6. -/
inductive Mode where
  | off
  | inReset
  | coldStart
  | active
  | quiet
  | watch
  | doze
deriving DecidableEq, Repr

/-- The clock of the core (R564): start clock, PLL, or limp clock. -/
inductive ClockSrc where
  | start
  | pll
  | limp
deriving DecidableEq, Repr

/-- Lifecycle (R83). -/
inductive Life where
  | blank
  | configured
  | sealed
deriving DecidableEq, Repr

/-- Cause of the boot, coded as COLD_START's DETAIL (Table 13.1). -/
inductive BootCause where
  | powerUp
  | reset
  | doze
  | collapse
deriving DecidableEq, Repr

/-- The clocks and uptime. -/
structure Clock where
  src : ClockSrc
  /-- milliseconds since the cold start (R576) -/
  uptime : Nat
  /-- uptime has started to count (R576, R610) -/
  running : Bool
  /-- PMFLAGS[0]: a millisecond has been counted on the watch oscillator (R579) -/
  watchCounted : Bool
  /-- a millisecond on the watch oscillator or limp clock is the next to be counted (R577) -/
  onWatchOsc : Bool
  /-- the node is waking from WATCH: channels and ports come back at the switch (Table 14.5) -/
  waking : Bool
deriving DecidableEq, Repr

/-- How far the cold start of Table 14.6 has come. -/
structure Startup where
  cause : BootCause
  /-- the boot includes the full store check (R605) -/
  fullCheck : Bool
  /-- the internal reset that opens Table 14.6 is held: VIO or VSYS is absent (R650) -/
  held : Bool
  strapped : Bool
  fused : Bool
  quickChecked : Bool
  inletsOpen : Bool
  /-- COLD_START has been raised in this boot -/
  announced : Bool
  /-- the first rotation of the boot has completed (R609) -/
  rotated : Bool
deriving DecidableEq, Repr

/-- Set-up latched from the straps (R31, R32) and the live value resistors. -/
structure Setup where
  /-- code of each coded strap in index order; `none` when ambiguous -/
  codes : Vector (Option (Fin 16)) 13
  /-- the four raw counts of each coded strap (RAWCOUNTS) -/
  raw : Vector (Vector (BitVec 12) 4) 13
  hvsrc : Bool
  cpmode : Bool
  refsel : Bool
  fuseen : Bool
  /-- an ambiguous coded strap was found (R74) -/
  unsorted : Bool
  /-- value resistors in ohms as sampled, in the order of R79 -/
  sampled : Vector (Option Nat) 6
  /-- value resistors in ohms as they stand now (R69, R681) -/
  live : Vector (Option Nat) 6
  /-- VFAIL of Table 6.23 -/
  vfail : BitVec 6
  /-- VCOMSET out of range at sampling: no rail until the next cold start (R71) -/
  railsBarred : Bool
  /-- VLCDSET out of range at sampling: stamp blanked (R72) -/
  stampBarred : Bool
  /-- R67 or R69 keeps the charger off -/
  chargerBarred : Bool
deriving DecidableEq, Repr

/-- A tenant as the working set-up has it (Table 3.3, Table 3.7). -/
structure TenantCfg where
  enable : Bool
  sealReq : Bool
  fastClass : Bool
  rights : BitVec 8
  quota : Nat
  port : Option Port
  keySlot : Fin 8
  holdOff : BitVec 6
deriving DecidableEq, Repr

/-- A district as the working set-up has it (Table 3.4). -/
structure District where
  rect : Rect
  owners : BitVec 32
  isShared : Bool
deriving DecidableEq, Repr

/-- A running fuse burn: the bits still to burn, in the order of R102, as (byte offset, bit). -/
structure BurnJob where
  bits : List (Nat × Nat)
deriving DecidableEq, Repr

/-- The fuse array and what the node made of it. -/
structure Fuses where
  /-- the 2,048 bytes, listed where not zero -/
  array : List Host.Cell
  life : Life
  eval : Bool
  tlock : Bool
  /-- in the evaluated configuration (R118) -/
  evaluated : Bool
  tfail : BitVec 32
  dfail : BitVec 64
  kfail : BitVec 8
  /-- R121 -/
  fault : Bool
  tenants : Vector TenantCfg 32
  /-- of a programmed array; `none`: the district does not exist on this node (R312) -/
  districts : Vector (Option District) 64
  /-- the usable key slots: written, unrevoked, check passed -/
  keys : Vector (Option (List Byte)) 8
  -- fuse mode
  image : Option (List Byte)
  lastResult : Byte
  /-- response waiting for the next CS# fall of port A (Table 3.8) -/
  response : Option (List Byte)
  burning : Option BurnJob
deriving DecidableEq, Repr

/-- Channel states (Table 4.7, codes of Table 6.24). -/
inductive ChanState where
  | reset
  | unused
  | held
  | matching
  | silent
  | integrating
  | errorActive
  | errorPassive
  | busOff
  | dead
  | laidUp
  | offBus
  | watchListener
  | unpowered
deriving DecidableEq, Repr

/-- A reassembly context (R217). -/
structure Context where
  key : CtxKey
  ident : BitVec 29
  /-- reserved class of Table 6.3 -/
  isReserved : Bool
  octets : List Byte
  nextSeq : BitVec 6
  /-- a fragment was lost (R222) -/
  lost : Bool
  /-- refused at its header: later fragments are dropped until LAST (R224) -/
  dropping : Bool
  headerDone : Bool
  /-- shelf granules claimed (R267) -/
  claim : Nat
  /-- frame buffers kept until the header is complete (R687), of the shared ones and of the 16, by the class of each frame
  (R148) -/
  buffers : Nat
  ownBuffers : Nat
  /-- uptime of the last fragment (R223) -/
  lastAt : Nat
  /-- LAST has arrived; completion is due (R225) -/
  complete : Bool
deriving DecidableEq, Repr

/-- One entry of the comparison record of R138. -/
structure DupRecord where
  ident : BitVec 29
  number : BitVec 16
  check : BitVec 32
  time : Nat
deriving DecidableEq, Repr

/-- The classes of transmit buffers (Table 4.6). -/
inductive TxClass where
  | fast
  | receipt
  | general
deriving DecidableEq, Repr

/-- One loaded transmit buffer (R150). -/
structure TxBuf where
  /-- loading order on this channel (R151) -/
  seq : Nat
  /-- outbound letter this fragment belongs to -/
  letter : Nat
  ident : BitVec 29
  cls : TxClass
  data : List Byte
  /-- LAST fragment of the letter -/
  isLast : Bool
deriving DecidableEq, Repr

/-- A letter partly loaded on a channel: the fragments not yet in buffers. -/
structure TxLetter where
  letter : Nat
  ident : BitVec 29
  cls : TxClass
  rest : List (List Byte)
  isRollcall : Bool
deriving DecidableEq, Repr

/-- The roll call of a channel (R168 to R171). -/
structure RollCall where
  nonce : Option (BitVec 32)
  /-- end of the random delay, uptime in units of 10 µs -/
  delayEnd : Option Nat
  /-- the ROLLCALL letter of this roll call, from its load until its last frame is sent -/
  letter : Option Nat
  /-- end of the window, once the ROLLCALL has been sent -/
  windowEnd : Option Nat
  /-- bit errors in the data field of the own ROLLCALL in this window (R172) -/
  errors : Nat
  /-- a roll call of this channel has ended in this boot -/
  rolled : Bool
deriving DecidableEq, Repr

/-- A bus channel (R123). -/
structure Channel where
  st : ChanState
  tec : Nat
  recErr : Nat
  -- counters of Table 4.8
  base : Nat
  remote : Nat
  protoExc : Nat
  overruns : Nat
  dups : Nat
  busOffs : Nat
  layUps : Nat
  /-- the rate being tried under listen-and-match, as a BUSRATE code 0–3 (R133) -/
  tryRate : Fin 4
  trySince : Nat
  goodFrames : Nat
  matched : Option (Fin 4)
  /-- uptimes of the bus-off and dead entries that count towards R160 -/
  entries : List Nat
  layUpEnd : Option Nat
  /-- standby negated, the 50 µs of R165 running -/
  settling : Bool
  ctxs : List Context
  dupRec : List DupRecord
  bufs : List TxBuf
  loading : List TxLetter
  txSeq : Nat
  /-- loading order of the buffer offered for arbitration (R151) -/
  sending : Option Nat
  roll : RollCall
  /-- the waking frame kept in WATCH (R592) -/
  heldFrame : Option Frame
  /-- this channel found the duplicate (DUPLICATE's DETAIL) -/
  foundDup : Bool
  /-- octets so far of a ROLLCALL that names this node and that it did not send (R172) -/
  rollRx : Option (List Byte)
  /-- a notice of R156 is owed for the return to error-active -/
  returning : Bool
  /-- it integrates after a protocol exception (R127) -/
  exception : Bool
  /-- it has been dead or laid up and cannot transmit yet: no new letter is loaded (R690) -/
  shut : Bool
  /-- MODEL's own: how often the free value recFall has been read -/
  falls : Nat
deriving DecidableEq, Repr

/-- An outbound letter from its outcome until it is loaded (R265, Table 7.1 Answering). -/
structure OutLetter where
  id : Nat
  kind : BitVec 5
  group : BitVec 3
  sub : BitVec 3
  tenant : Tenant
  stream : BitVec 4
  cls : TxClass
  /-- header, body and seal trailer; the bus adds CHECK -/
  octets : List Byte
  /-- channels it still has to be loaded on -/
  toA : Bool
  toB : Bool
  /-- courier port it leaves on (R142) -/
  port : Option Port
  /-- job whose docket its load frees (Table 0.3) -/
  docket : Option Nat
  /-- its load frees a refusal-list entry of this tenant number (R265) -/
  refusal : Option Tenant
  /-- RMODE selects no final receipt: only the moment of its load is waited for (R246) -/
  unsent : Bool
deriving DecidableEq, Repr

/-- What a courier port is doing with the SI octets of the transaction. -/
inductive RxPhase where
  /-- CS# negated, or fell before the ports went live (R608) -/
  | idle
  /-- CS# asserted, no SI octet yet -/
  | fallen
  /-- the rest of the SI octets is ignored (R183, R184) -/
  | ignoring
  /-- SYNC was 0xA5 -/
  | synced
  /-- IDENT and LENGTH have arrived (R189) -/
  | lengthKnown (hdr : Vector Byte 11) (claim : Nat) (shelfRefused : Bool)
deriving DecidableEq, Repr

/-- A courier port (R176). -/
structure Courier where
  /-- the port is powered and live (R206, R608) -/
  live : Bool
  csLow : Bool
  rx : RxPhase
  /-- SI octets taken so far in the transaction -/
  taken : Nat
  receipts : List OutLetter
  generals : List OutLetter
  /-- id of the letter in the shifter (R196) -/
  shifting : Option Nat
  -- counters of Table 5.4
  letters : Nat
  torn : Nat
  damaged : Nat
  badSync : Nat
  shelfRefusals : Nat
  outTears : Nat
  /-- octets last put on SO by the load at CS# fall: an envelope, a fuse-mode response, or nothing -/
  so : List Byte
deriving DecidableEq, Repr

/-- A letter as judged (Table 6.4), with the identifier that carried it. -/
structure Letter where
  inlet : Inlet
  ident : BitVec 29
  /-- letter octets without CHECK -/
  octets : List Byte
deriving DecidableEq, Repr

/-- What a job is: a docketed letter, or a round the node starts itself. -/
inductive JobKind where
  | letter
  | render (tile : Fin 33)
  | settling (col row : Nat)
  /-- by the number of the torn rectangle -/
  | cleaning (torn : Nat)
deriving DecidableEq, Repr

/-- Where a job stands (Table 7.1), with Judging split at the seal check and the walk. -/
inductive JobState where
  | sealWait
  | walkWait
  | orderWait
  | held
  | deferred
  | committing
  | staged
  | running
  /-- a PEEK waiting for its snapshot, a WEIGH for its weigh-in, a WAVESET for its installation, a RECALL for its
  completion, a RELEASE for its instant -/
  | pendingEffect
  /-- a WAVESET being written (R392) -/
  | writing
  | answering
deriving DecidableEq, Repr

/-- Where a part of a round's rectangle stands (R362). -/
inductive PartState where
  | waiting
  | copying
  | copied
  | laned (lane : Fin 64)
  | done
deriving DecidableEq, Repr

/-- What keeps a part waiting: a round from its copy to its write-back (R692), a torn rectangle (R474), or the pixels
that a job with an earlier order position has not copied yet (R277). -/
inductive CoverId where
  | round (n : Nat)
  | torn (n : Nat)
  | job (n : Nat)
deriving DecidableEq, Repr

/-- A part (R361). -/
structure Part where
  rect : Rect
  st : PartState
  /-- its covering set (R362) -/
  waitOn : List CoverId
  /-- the number of its round, from its copy on -/
  round : Nat
deriving DecidableEq, Repr

/-- An earmark (R444, R445). -/
structure Earmark where
  /-- held against VHOLD, in fJ -/
  held : Nat
  /-- held against XHOLD, in fJ (R452) -/
  xheld : Nat
  /-- order of grant (R449) -/
  seq : Nat
  /-- the WEIGH that made it, by its job number and tenant (R377) -/
  weigh : Option (Nat × Tenant)
  /-- uptime at which it lapses (R448, R377) -/
  expiry : Option Nat
deriving DecidableEq, Repr

/-- A temperature rotation as it is used: the grid points in 1/12 of 2^-48 °C, row by row, and the on-die sensor in
1/16 °C (R396). -/
structure Rotation where
  cols : Nat
  rows : Nat
  grid : List Int
  die : Int
deriving DecidableEq, Repr

/-- A stored reading (R484): the body of Table 6.15, and the uptime of its acceptance in this boot, `none` for a
reading of an earlier boot. -/
structure Reading where
  body : List Byte
  time : Option Nat
  /-- its deadline has passed (R486) -/
  stale : Bool
  /-- trend slots (R502): slot number, last, lowest and highest VALUE accepted in it, newest first -/
  trend : List (Nat × Int × Int × Int)
deriving DecidableEq, Repr

/-- What a render draws from (R495). -/
structure Snap where
  readings : Vector (Option Reading) 32
  uptime : Nat
deriving DecidableEq, Repr

/-- A letter with a docket, or a round of the node's own. -/
structure Job where
  id : Nat
  kind : JobKind
  letter : Option Letter
  st : JobState
  /-- pixel rectangle on the board (R316) -/
  rect : Option Rect
  /-- the pixel of a POST's own rectangle that lies on the top left of `rect` (R316) -/
  org : Nat × Nat
  mode : Nat
  tag : BitVec 16
  parts : List Part
  /-- the first pixel has been copied -/
  started : Bool
  /-- a plain RELEASE has marked it (R372) -/
  released : Bool
  /-- rectangles of later-numbered POSTs it must spare (R274) -/
  spared : List Rect
  earmark : Option Earmark
  /-- the energy need in fJ, against VHOLD and against XHOLD -/
  need : Nat
  xneed : Nat
  /-- place in the asking order while it waits for an earmark (R26) -/
  asked : Option Nat
  /-- uptime since when it has been Held for energy, or has waited for its earmark -/
  heldSince : Option Nat
  /-- pixels driven so far, by the rounds written back -/
  px : Nat
  /-- shelf granules (R267, R490) -/
  claim : Nat
  snap : Option Snap
  /-- a recall or suspension withdraws it when its commit ends (R295; log 14) -/
  withdrawn : Option Byte
  /-- outcome known: status code (R296) -/
  outcome : Option Byte
deriving DecidableEq, Repr

/-- Fault states (Table 7.3). -/
inductive FaultState where
  | healthy
  | cautioned
  | suspended
  | recalling
deriving DecidableEq, Repr

/-- A tenant's standing. -/
structure Standing where
  fault : FaultState
  strikes : Nat
  cautionEnd : Option Nat
  suspensionEnd : Option Nat
  /-- suspensions since cold start (R286) -/
  suspensions : Nat
  /-- the QUOTA_LIMIT notice has been given (R261) -/
  quotaNoted : Bool
  /-- refusal-list entries held (R263) -/
  refusals : Nat
deriving DecidableEq, Repr

/-- A RELEASE between its judging and its instant (R370). -/
structure PendingRelease where
  job : Nat
  /-- the job numbers of the POSTs it applies to -/
  posts : List Nat
  allOrNone : Bool
  /-- the WEIGH letters that come before it: those whose earmarks it can start (R379) -/
  weighs : List Nat
deriving DecidableEq, Repr

/-- Lane states (Table 9.7). -/
inductive LaneState where
  | free
  | staged
  | armed
  | running
  | tail
  | paused
  | closing
deriving DecidableEq, Repr

/-- A lane (R354). -/
structure Lane where
  st : LaneState
  job : Nat
  rect : Rect
  /-- frames each row of the rectangle has received (R352) -/
  got : List Nat
  /-- mode frames, L_m; 0 for a settling round -/
  modeFrames : Nat
  /-- tail frames of this round: TAILLEN or 0 (R415) -/
  tailFrames : Nat
  /-- the same before the latest panel frame: what R374 can take back -/
  prev : List Nat
  /-- uptime since when it has been STAGED (R366) -/
  stagedSince : Nat
  /-- the values that fixed its bands (R405) -/
  temps : Rotation
  /-- the round's journal number -/
  round : Nat
  /-- words of the waveform store whose codes were 0b00 in a panel frame, each with the first row of the round and the
  frames its rows had received before (Table 15.3) -/
  spoilt : List (Nat × Nat × List Nat)
  /-- pixels of a plane word that could not be corrected, and the frames they had been driven before (Table 15.3) -/
  dropped : List (Rect × Nat)
  /-- old and new value of a pixel before its plane word was lost in mid-round, by which the frames it had are booked
  (R412, Table 15.3) -/
  kept : List (Nat × Nat × Nat × Nat)
  /-- the ledger that decided the tail of a pixel whose ledger word was lost since (R415, Table 15.3) -/
  decided : List (Nat × Nat × Int)
deriving DecidableEq, Repr

/-- The waveform set a round ran with: a ROM class, or the store set (R422). -/
inductive SetTag where
  | rom (cls : Nat)
  | store (setid : BitVec 16)
deriving DecidableEq, Repr

/-- A round in the journal (R422, R423). -/
structure JRound where
  round : Nat
  job : Nat
  rect : Rect
  mode : Nat
  settling : Bool
  cleaning : Bool
  tail : Bool
  set : SetTag
  tgrid : Fin 16
  temps : Rotation
  /-- the last frame that has begun, k of R423 -/
  frame : Nat
  /-- last-frame entry written (R469) -/
  lastDone : Bool
  /-- rows, from the top, that the journal shows as written back (R471) -/
  rowsDone : Nat
deriving DecidableEq, Repr

/-- What a journal entry that must be kept says (R616). -/
inductive JEntry where
  | first
  | frame (k : Nat)
  | last
  /-- so many rows of the round are written back (R471) -/
  | rows (n : Nat)
  | box
  /-- a POST has started its commit (R472) -/
  | commit
deriving DecidableEq, Repr

/-- A slot of the journal ring that holds an entry of a round not yet written back, by the round's journal number, of a box
write not yet complete, or of a commit, by its job (R472, R615, R616). -/
structure JSlot where
  slot : Nat
  round : Nat
  entry : JEntry
deriving DecidableEq, Repr

/-- A POST that has started committing, in the journal (R472, R476). -/
structure JPost where
  job : Nat
  letter : Letter
  /-- parts copied whose round has journalled no first frame yet -/
  copied : List Rect
  /-- one of its rounds has journalled a first frame -/
  ran : Bool
  /-- boot serial under which it started (TORN's DETAIL) -/
  boot : BitVec 32
deriving DecidableEq, Repr

/-- A torn rectangle and the letter it came from, waiting for its cleaning round (R474). -/
structure Torn where
  id : Nat
  rect : Rect
  tenant : Tenant
  number : BitVec 16
deriving DecidableEq, Repr

/-- Wear of one page (R625, R626). -/
structure Wear where
  count : Nat
  stored : Nat
  /-- words of the page written since the count last advanced -/
  touched : List Nat
deriving DecidableEq, Repr

/-- The persistent store. -/
structure Store where
  /-- the octets at their offsets, in the canonical form of Memory.wf -/
  mem : List Host.Cell
  /-- offsets of the words that cannot be corrected and stay so (R305, R614, R580) -/
  bad : List Nat
  /-- MODEL's own: words that a command has found damaged and that no read has met since (R621, R622; log 80) -/
  unread : Findings
  /-- next slots of the counter rings A and B, and of the journal ring (R614, R615) -/
  ringA : Nat
  ringB : Nat
  journalSlot : Nat
  live : List JSlot
  rounds : List JRound
  posts : List JPost
  boxWrite : Option (Nat × List Byte)
  /-- collapse record; closing record (Tables 11.5, 11.6) -/
  collapsed : Bool
  closed : Bool
  /-- the remap table in use: (page, spare page), newest last (R629); its copies A and B in pages 34 and 35 of the system
  region (R630, R631) -/
  remap : List (Nat × Nat)
  remapA : List (Nat × Nat)
  remapB : List (Nat × Nat)
  /-- a remap copy in progress: (page, spare page) (R630) -/
  remapping : List (Nat × Nat)
  /-- tags of the counters that no copy tells any more, because their newest words stood on pages which a lost remap table
  redirected (R112, R113, Table 15.3) -/
  untold : List Nat
  /-- retired pages, degraded region codes (R634) -/
  retired : List Nat
  degraded : List Nat
  wear : List (Nat × Wear)
  /-- latest readings (R484) -/
  readings : Vector (Option Reading) 32
  /-- the number the next round takes in the journal -/
  nextRound : Nat
  /-- MODEL's own: the index at which the store's free values are read next (logs 8, 75) -/
  freeIx : Nat
deriving DecidableEq, Repr

/-- The waveform set in force (R385). -/
inductive SetInForce where
  | none
  | rom (cls : Fin 14)
  | store
deriving DecidableEq, Repr

/-- A WAVESET's installation is deferred to the next cold start, or not (R394). -/
structure Waves where
  inForce : SetInForce
  /-- the set that was in force when the writing of a WAVESET began (R394) -/
  before : SetInForce
  /-- the waveform store holds a valid set (R393) -/
  valid : Bool
  /-- that set waits for the next cold start (R394) -/
  deferred : Bool
  /-- a word of it could not be corrected: it becomes invalid once the running rounds have ended (Table 15.3) -/
  spoilt : Bool
deriving DecidableEq, Repr

/-- States of the high-voltage rails (R344 to R349). -/
inductive Rails where
  | off
  /-- the sequence of Table 9.5 runs -/
  | enabling
  /-- HVEN asserted, HVGOOD awaited (R347) -/
  | waitGood
  | on
  /-- the sequence of Table 9.6 runs -/
  | disabling
  /-- crowbarred to VSS: the fast discharge runs (Table 11.6) -/
  | crowbar
deriving DecidableEq, Repr

/-- The board: rails, lanes and the panel frame. -/
structure Board where
  rails : Rails
  /-- how the rails stood when the fast discharge began (Table 11.6) -/
  stood : Rails
  /-- uptime since when every lane has been FREE, after one was in use (R345) -/
  freeSince : Option Nat
  /-- the loop was found open: disabled until the next cold start (R455, R456) -/
  loopOpen : Bool
  /-- uptime at which HVEN was last asserted (R348) -/
  hvenAt : Nat
  /-- HVGOOD timed out at this uptime (R348) -/
  goodTimeout : Option Nat
  /-- RAILS_RESTORED is owed -/
  restoredOwed : Bool
  lanes : Vector Lane 64
  /-- a panel frame runs or follows at once (R351) -/
  framing : Bool
  /-- the latest scan is the one of a REFCLK loss: 0b00 over the rows of the paused lanes (R569) -/
  blank : Bool
  /-- panel frames begun in this boot; rows driven and skipped in the latest -/
  frames : Nat
  driven : Nat
  skipped : Nat
  releases : List PendingRelease
deriving DecidableEq, Repr

/-- The hold-up charger (R430, R583). -/
inductive Charger where
  | off
  | on
  /-- paused for a weigh-in -/
  | paused
  /-- in WATCH and DOZE: off but for the pulses that restore VHOLD (R583) -/
  | pulse
  /-- stopped for the rest of the boot -/
  | stopped
deriving DecidableEq, Repr

/-- The latest weigh-in (R433). -/
structure WeighIn where
  time : Nat
  /-- usable energy E_U in fJ -/
  eu : Nat
  /-- credited capacitance: I in µA over ΔV + 2 counts (R432); `none` when no load was applied (R434) -/
  cap : Option (Nat × Nat)
  failed : Bool
  v0 : Nat
deriving DecidableEq, Repr

/-- Energy. -/
structure Energy where
  charger : Charger
  latest : Option WeighIn
  /-- a weigh-in runs (R431) -/
  weighing : Bool
  /-- VHOLD in 0.1 mV, as last seen: at a weigh-in, at the guard voltage, after a charger pulse (R431, R437, R583) -/
  vhold : Nat
  /-- the next place in the asking order, and in the order of grants -/
  nextAsk : Nat
  nextGrant : Nat
  /-- "energy short" holds because a POST has been Held for 60 s (Table 12.4) -/
  shortHeld : Bool
  /-- WEIGH letters whose weigh-in is due or running, by job number -/
  weighs : List Nat
deriving DecidableEq, Repr

/-- A source of the notice desk (Table 13.2). -/
structure Source where
  counter : Nat
  pending : Bool
  inHand : Bool
  /-- tenant that received its last NOTICE (R536) -/
  last : Tenant
  /-- postmark and DETAIL of its latest event (R526) -/
  uptime : Nat
  boot : BitVec 32
  watch : Bool
  detail : BitVec 32
deriving DecidableEq, Repr

/-- A tenant's subscriptions (R532, R533). -/
structure Subscription where
  word : BitVec 64
  fast : BitVec 64
  subs : Vector (BitVec 3) 64
  inlet : Option Inlet
  /-- notices sent to the tenant since cold start (R231) -/
  sent : BitVec 16
deriving DecidableEq, Repr

/-- A NOTICE that is loaded, or waits for its second channel (R690), until its last copy has gone (R530, R554, R557). -/
structure Flying where
  letter : Nat
  source : Fin 64
  count : Nat
  /-- its copy for channel A, channel B, port has still to go out -/
  onA : Bool
  onB : Bool
  port : Option Port
  /-- its COUNT has been subtracted (R530) -/
  sent : Bool
deriving DecidableEq, Repr

/-- The notice desk. -/
structure Desk where
  sources : Vector Source 64
  subs : Vector Subscription 32
  /-- uptime at which each group's hold-off ends (R544) -/
  holdOff : Vector (Option Nat) 8
  /-- the three cycles of R549 are open for so many commands, this one included: a pending bit set now is lost (R550) -/
  window : Nat
  /-- commands after this one for which an ACKNOWLEDGE of this one opens them -/
  opening : Nat
  /-- NOTICE letters on their way -/
  flying : List Flying
  /-- MODEL's own: sources with an event in the running command -/
  fired : BitVec 64
deriving DecidableEq, Repr

/-- A render of a tile, or of the system rows (tile 32). -/
structure Render where
  pending : Bool
  /-- it waits for shelf granules (R490) -/
  claiming : Bool
  since : Option Nat
  /-- RENDER_WAITING has been raised for this wait -/
  waitNoted : Bool
  /-- a render of it has been started in this boot (R491) -/
  drawn : Bool
deriving DecidableEq, Repr

/-- The stamp. -/
structure Stamp where
  driven : Bool
  /-- the stamp loop was found open (R457) -/
  loopOpen : Bool
  /-- pattern of each tenant segment: 0 off, 1 on, 2 slow blink, 3 fast blink -/
  segs : Vector (Fin 4) 32
  /-- pending fallbacks: end of LIFE in uptime, and the state after it (R517) -/
  fallback : Vector (Option (Nat × Bool)) 32
  /-- the 4-digit field as ASCII (R515) -/
  field : Vector Byte 4
  /-- the second of uptime in which the field was updated last (R516) -/
  fieldSecond : Option Nat
  /-- V_LCD in 1/80,000 mV (R64) -/
  vlcd : Int
  /-- remaining LIFE at entry to DOZE is carried by `fallback`; the segments shown stay (R524) -/
  dozing : Bool
  /-- the icons as they stood at entry to DOZE (R524) -/
  held : List Bool
deriving DecidableEq, Repr

/-- Levels of the pins that come from outside. -/
structure Pins where
  vsys : Bool
  vio : Bool
  resetLow : Bool
  wakeLow : Bool
  dozeLow : Bool
  hvgood : Bool
deriving DecidableEq, Repr

/-- Whole-node bookkeeping of letters. -/
structure Desks where
  jobs : List Job
  /-- job numbers in order position (R271) -/
  order : List Nat
  nextJob : Nat
  /-- jobs that completed in the latest completion cycle (R271) -/
  cycle : List Nat
  standing : Vector Standing 32
  /-- tenants served last by the seal check and by the walk (R255) -/
  sealTurn : Tenant
  walkTurn : Tenant
  out : List OutLetter
  nextOut : Nat
  /-- DEAD, ORPHANS of Table 6.23 -/
  dead : Nat
  orphans : Nat
  /-- recalls in progress: target, and the RECALL letters' job numbers (R298) -/
  recalls : List (Tenant × List Nat)
  /-- uptime of the last courier letter handed over (icon 8) -/
  lastCourier : Option Nat
  /-- TORN receipts of the recovery, with their bodies, until the roll call has ended (R476, R477) -/
  tornDue : List (Letter × List Byte)
deriving DecidableEq, Repr

/-- Idle timers of R585 and R587, and the once-a-second and once-a-minute bookkeeping. -/
structure Idle where
  quietMs : Nat
  watchMs : Nat
  /-- uptime at which the latest system-row render began (R505) -/
  systemRowsAt : Option Nat
  /-- the fields drawn by it: CONDITION bits and hours of uptime -/
  systemRows : Option (BitVec 8 × Nat)
deriving DecidableEq, Repr

/-- The state of the node. -/
structure State where
  mode : Mode
  /-- closing time runs (R459) -/
  closing : Bool
  /-- the closing sequence of RESET# runs (R600) -/
  resetClosing : Bool
  /-- the fast discharge runs (R467) -/
  discharging : Bool
  /-- OFF was entered by a fast discharge: a cold start follows when VSYS is there (R468) -/
  fell : Bool
  pins : Pins
  clock : Clock
  start : Startup
  /-- boot serial (R580) -/
  boot : BitVec 32
  setup : Setup
  fuses : Fuses
  chanA : Channel
  chanB : Channel
  /-- a duplicate was found: silent until the next cold start (R173) -/
  duplicate : Bool
  portA : Courier
  portB : Courier
  desks : Desks
  desk : Desk
  energy : Energy
  board : Board
  waves : Waves
  /-- the latest rotation (R396), failed thermistor inputs (R399), the on-die sensor in 1/16 °C -/
  rotation : Option Rotation
  /-- uptime at which the running rotation began (R396) -/
  rotationAt : Nat
  thFailed : BitVec 16
  dieTemp : Int
  dieHot : Bool
  store : Store
  /-- torn rectangles not yet cleaned (R474) -/
  torn : List Torn
  /-- settling blocks examined and due (R419), by column and row -/
  settling : List (Nat × Nat)
  renders : Vector Render 33
  stamp : Stamp
  idle : Idle
  /-- the instruction that the TAP holds, as last accepted (R117; log 77) -/
  tap : TapOp
  /-- commands waiting, first in, first out -/
  pending : List Instr
deriving DecidableEq, Repr

/-- A free lane. -/
def Lane.empty : Lane :=
  { st := .free, job := 0, rect := ⟨0, 0, 0, 0⟩, got := [], modeFrames := 0, tailFrames := 0, prev := [],
    stagedSince := 0, temps := ⟨0, 0, [], 400⟩, round := 0, spoilt := [], dropped := [], kept := [], decided := [] }

/-- A channel as a cold start leaves it (R125, Table 4.7). -/
def Channel.initial : Channel :=
  { st := .reset, tec := 0, recErr := 0, base := 0, remote := 0, protoExc := 0, overruns := 0, dups := 0, busOffs := 0,
    layUps := 0, tryRate := 3, trySince := 0, goodFrames := 0, matched := none, entries := [], layUpEnd := none,
    settling := false, ctxs := [], dupRec := [], bufs := [], loading := [], txSeq := 0, sending := none,
    roll := ⟨none, none, none, none, 0, false⟩, heldFrame := none, foundDup := false, rollRx := none, returning := false,
    exception := false, shut := false, falls := 0 }

/-- A courier port as a cold start leaves it (R205, R608). -/
def Courier.initial : Courier :=
  { live := false, csLow := false, rx := .idle, taken := 0, receipts := [], generals := [], shifting := none,
    letters := 0, torn := 0, damaged := 0, badSync := 0, shelfRefusals := 0, outTears := 0, so := [] }

/-- A source as a cold start leaves it (R534, R536). -/
def Source.initial : Source :=
  { counter := 0, pending := false, inHand := false, last := 31, uptime := 0, boot := 0, watch := false, detail := 0 }

/-- The subscriptions of a tenant as a cold start leaves them (R534). -/
def Subscription.initial : Subscription :=
  { word := 0, fast := 0, subs := Vector.replicate 64 0, inlet := none, sent := 0 }

/-- The notice desk as a cold start leaves it (R534). -/
def Desk.initial : Desk :=
  { sources := Vector.replicate 64 Source.initial, subs := Vector.replicate 32 Subscription.initial,
    holdOff := Vector.replicate 8 none, window := 0, opening := 0, flying := [], fired := 0 }

/-- A tenant's standing as a cold start leaves it (R282). -/
def Standing.initial : Standing :=
  { fault := .healthy, strikes := 0, cautionEnd := none, suspensionEnd := none, suspensions := 0, quotaNoted := false,
    refusals := 0 }

/-- No letter in flight (R282). -/
def Desks.initial : Desks :=
  { jobs := [], order := [], nextJob := 0, cycle := [], standing := Vector.replicate 32 Standing.initial,
    sealTurn := 31, walkTurn := 31, out := [], nextOut := 0, dead := 0, orphans := 0, recalls := [],
    lastCourier := none, tornDue := [] }

/-- Every lane FREE, every rail off (Table 9.7). -/
def Board.initial : Board :=
  { rails := .off, stood := .off, freeSince := none, loopOpen := false, goodTimeout := none, hvenAt := 0, restoredOwed := false,
    lanes := Vector.replicate 64 Lane.empty, framing := false, blank := false, frames := 0, driven := 0, skipped := 0,
    releases := [] }

/-- No weigh-in yet, the charger off until strap sampling ends (R430). -/
def Energy.initial : Energy :=
  { charger := .off, latest := none, weighing := false, vhold := 0, nextAsk := 0, nextGrant := 0,
    shortHeld := false, weighs := [] }

/-- A tenant of the BLANK defaults before the straps are known, and one whose entry is unwritten or has failed (Table 3.7,
R94). DESIGN CHOICE: it has key slot 0, so a refusal receipt to a tenant that an evaluated or sealed node has no entry for
is sealed by that slot's key when the slot is usable (R114; log 72). -/
def TenantCfg.disabled : TenantCfg :=
  { enable := false, sealReq := false, fastClass := false, rights := 0, quota := 0, port := none, keySlot := 0,
    holdOff := 0 }

/-- A blank fuse array, not yet read (Table 3.2). -/
def Fuses.initial : Fuses :=
  { array := [], life := .blank, eval := false, tlock := false, evaluated := false, tfail := 0, dfail := 0, kfail := 0,
    fault := false, tenants := Vector.replicate 32 TenantCfg.disabled, districts := Vector.replicate 64 none,
    keys := Vector.replicate 8 none, image := none, lastResult := 0, response := none, burning := none }

/-- Straps not yet sampled (log 3). -/
def Setup.initial : Setup :=
  { codes := Vector.replicate 13 none, raw := Vector.replicate 13 (Vector.replicate 4 0), hvsrc := false,
    cpmode := false, refsel := false, fuseen := false, unsorted := false, sampled := Vector.replicate 6 none,
    live := Vector.replicate 6 none, vfail := 0, railsBarred := false, stampBarred := false, chargerBarred := false }

/-- The store of a part as delivered: nothing listed (R303; log 4). -/
def Store.initial : Store :=
  { mem := [], bad := [], unread := ⟨[], []⟩, ringA := 0, ringB := 0, journalSlot := 0, live := [], rounds := [], posts := [], boxWrite := none,
    collapsed := false, closed := false, remap := [], remapA := [], remapB := [], remapping := [], untold := [], retired := [],
    degraded := [], wear := [], readings := Vector.replicate 32 none, nextRound := 0, freeIx := 0 }

/-- The stamp before it is driven (Table 14.6). -/
def Stamp.initial : Stamp :=
  { driven := false, loopOpen := false, segs := Vector.replicate 32 0, fallback := Vector.replicate 32 none,
    field := #v[0x2D, 0x2D, 0x2D, 0x2D], fieldSecond := none, vlcd := 0, dozing := false, held := [] }

/-- No render pending, none drawn. -/
def Render.initial : Render := { pending := false, claiming := false, since := none, waitNoted := false, drawn := false }

/-- The machine right after reset: time 0 of the cold start of Table 14.6 on a part as delivered, the first start from
OFF (log 2). Flags released, channels in Reset, no strap sampled, uptime 0. -/
def State.reset : State :=
  { mode := .coldStart, closing := false, resetClosing := false, discharging := false, fell := false,
    pins := { vsys := true, vio := true, resetLow := false, wakeLow := false, dozeLow := false, hvgood := false },
    clock := { src := .start, uptime := 0, running := false, watchCounted := false, onWatchOsc := false,
               waking := false },
    start := { cause := .powerUp, fullCheck := true, held := false, strapped := false, fused := false, quickChecked := false,
               inletsOpen := false, announced := false, rotated := false },
    boot := 0, setup := Setup.initial, fuses := Fuses.initial, chanA := Channel.initial, chanB := Channel.initial,
    duplicate := false, portA := Courier.initial, portB := Courier.initial, desks := Desks.initial,
    desk := Desk.initial, energy := Energy.initial, board := Board.initial,
    waves := { inForce := .none, before := .none, valid := false, deferred := false, spoilt := false },
    rotation := none, rotationAt := 0, thFailed := 0, dieTemp := 400, dieHot := false, store := Store.initial, torn := [],
    settling := [], renders := Vector.replicate 33 Render.initial, stamp := Stamp.initial,
    idle := { quietMs := 0, watchMs := 0, systemRowsAt := none, systemRows := none }, tap := .idcode, pending := [] }

end Sys2Proof.Machine
end

