-- ==== Sys2Proof/Machine/Bits.lean ====
section
/-! DEFINITION. Little-endian fields (R7), the two cyclic checks (Table 3.1, Table 3.10) and AES-256-CMAC (R104). -/
namespace Sys2Proof.Machine

/-- Octet `i` of a list, 0 past its end. -/
def octet (l : List Byte) (i : Nat) : Byte := l.getD i 0

/-- The little-endian number in `n` octets from offset `i` (R7). -/
def leNat (l : List Byte) (i : Nat) : Nat → Nat
  | 0 => 0
  | n + 1 => (octet l i).toNat + 256 * leNat l (i + 1) n

/-- The same field as a two's complement number. -/
def leInt (l : List Byte) (i n : Nat) : Int :=
  let v := leNat l i n
  if v < 2 ^ (8 * n - 1) then (v : Int) else (v : Int) - 2 ^ (8 * n)

/-- `n` octets of a number, least significant first (R7). -/
def leBytes (v : Nat) : Nat → List Byte
  | 0 => []
  | n + 1 => BitVec.ofNat 8 v :: leBytes (v / 256) n

/-- One byte into a CRC-16 with polynomial 0x1021, not reflected (Table 3.1). -/
def crc16Bits : Nat → BitVec 16 → BitVec 16
  | 0, c => c
  | n + 1, c => crc16Bits n (if c.getMsbD 0 then (c <<< 1) ^^^ 0x1021 else c <<< 1)

/-- CRC-16 of a record's bytes: initial value 0xFFFF, no reflection, no final XOR. -/
def crc16 (l : List Byte) : BitVec 16 :=
  l.foldl (fun (c : BitVec 16) b => crc16Bits 8 (c ^^^ (b ++ (0 : Byte)))) 0xFFFF

/-- One byte into the reflected CRC-32 (Table 3.10). -/
def crc32Bits : Nat → BitVec 32 → BitVec 32
  | 0, c => c
  | n + 1, c => crc32Bits n (if c.getLsbD 0 then (c >>> 1) ^^^ 0xEDB88320 else c >>> 1)

/-- CRC-32 with the IEEE 802.3 polynomial, reflected, initial value and final XOR 0xFFFF_FFFF. -/
def crc32 (l : List Byte) : BitVec 32 :=
  (l.foldl (fun c b => crc32Bits 8 (c ^^^ b.setWidth 32)) 0xFFFFFFFF) ^^^ 0xFFFFFFFF

/-! AES-256 in the FIPS 197 octet order (R91, R104); the block and the round keys are octet lists. PRESUMED: log 11. -/

/-- Multiplication by x in GF(2^8). -/
def xtime (b : Byte) : Byte := if b.getMsbD 0 then (b <<< 1) ^^^ 0x1B else b <<< 1

/-- Multiplication in GF(2^8), `n` bits of the second factor. -/
def gfMul : Nat → Byte → Byte → Byte
  | 0, _, _ => 0
  | n + 1, a, b => (if b.getLsbD 0 then a else 0) ^^^ gfMul n (xtime a) (b >>> 1)

/-- a^254, the inverse in GF(2^8), with 0 to 0. -/
def gfInv (a : Byte) : Byte :=
  let sq := fun x => gfMul 8 x x
  let a2 := sq a
  let a4 := sq a2
  let a8 := sq a4
  let a16 := sq a8
  let a32 := sq a16
  let a64 := sq a32
  let a128 := sq a64
  gfMul 8 a2 (gfMul 8 a4 (gfMul 8 a8 (gfMul 8 a16 (gfMul 8 a32 (gfMul 8 a64 a128)))))

/-- The S-box. -/
def sbox (a : Byte) : Byte :=
  let b := gfInv a
  b ^^^ b.rotateLeft 1 ^^^ b.rotateLeft 2 ^^^ b.rotateLeft 3 ^^^ b.rotateLeft 4 ^^^ 0x63

/-- Octet-wise exclusive or. -/
def xorBytes (a b : List Byte) : List Byte := List.zipWith (· ^^^ ·) a b

/-- The key words still to be derived: `w` holds the words so far, newest first. -/
def expandKey : Nat → Nat → Byte → List (List Byte) → List (List Byte)
  | 0, _, _, w => w
  | fuel + 1, i, rcon, w =>
    let t := w.getD 0 []
    let t :=
      if i % 8 = 0 then
        match (t.drop 1 ++ t.take 1).map sbox with
        | x :: r => (x ^^^ rcon) :: r
        | [] => []
      else if i % 8 = 4 then t.map sbox
      else t
    expandKey fuel (i + 1) (if i % 8 = 0 then xtime rcon else rcon) (xorBytes (w.getD 7 []) t :: w)

/-- Groups of `k` octets. -/
def chunksOf (k : Nat) : Nat → List Byte → List (List Byte)
  | 0, _ => []
  | n + 1, l => l.take k :: chunksOf k n (l.drop k)

/-- The 15 round keys of a 32-octet key. -/
def roundKeys (key : List Byte) : List (List Byte) :=
  let words := (expandKey 52 8 1 (chunksOf 4 8 key).reverse).reverse
  chunksOf 16 15 words.flatten

/-- ShiftRows: octet (row r, column c) of the block lies at 4 c + r. -/
def shiftRows (b : List Byte) : List Byte :=
  (List.range 16).map fun i => octet b ((4 * (i / 4 + i % 4) + i % 4) % 16)

/-- MixColumns of one column. -/
def mixColumn (c : List Byte) : List Byte :=
  (List.range 4).map fun i =>
    xtime (octet c i) ^^^ (xtime (octet c ((i + 1) % 4)) ^^^ octet c ((i + 1) % 4))
      ^^^ octet c ((i + 2) % 4) ^^^ octet c ((i + 3) % 4)

/-- The rounds after the first key addition; the last one mixes no columns. -/
def aesRounds : List (List Byte) → List Byte → List Byte
  | [], b => b
  | [k], b => xorBytes (shiftRows (b.map sbox)) k
  | k :: ks, b =>
    aesRounds ks (xorBytes ((chunksOf 4 4 (shiftRows (b.map sbox))).map mixColumn).flatten k)

/-- AES-256 of one 16-octet block. -/
def aesBlock (ks : List (List Byte)) (b : List Byte) : List Byte :=
  match ks with
  | [] => b
  | k :: ks => aesRounds ks (xorBytes b k)

/-- Doubling in GF(2^128), most significant octet first, as CMAC derives its subkeys. -/
def cmacDouble (l : List Byte) : List Byte :=
  let v := l.foldl (fun a b => 256 * a + b.toNat) 0
  let d := (2 * v) % 2 ^ 128
  let d := if v < 2 ^ 127 then d else d ^^^ 0x87
  (leBytes d 16).reverse

/-- The chain over the blocks before the last. -/
def cmacChain (ks : List (List Byte)) : Nat → List Byte → List Byte → List Byte
  | 0, x, _ => x
  | n + 1, x, m => cmacChain ks n (aesBlock ks (xorBytes x (m.take 16))) (m.drop 16)

/-- AES-256-CMAC (NIST SP 800-38B). -/
def cmac (key m : List Byte) : List Byte :=
  let ks := roundKeys key
  let zero := List.replicate 16 (0 : Byte)
  let k1 := cmacDouble (aesBlock ks zero)
  let k2 := cmacDouble k1
  let n := if m.length = 0 then 0 else (m.length - 1) / 16
  let last := m.drop (16 * n)
  let block :=
    if last.length = 16 then xorBytes last k1
    else xorBytes (last ++ (0x80 : Byte) :: List.replicate (15 - last.length) 0) k2
  aesBlock ks (xorBytes (cmacChain ks n zero m) block)

/-- Octet string M of Table 3.13. -/
def sealString (inbound : Bool) (node : Byte) (tenant kind stream : Nat) (octets : List Byte) (counter : Nat) :
    List Byte :=
  [0x49, 0x56, 0x50, if inbound then 0x53 else 0x52] ++ [node, BitVec.ofNat 8 tenant, BitVec.ofNat 8 kind,
    BitVec.ofNat 8 stream] ++ leBytes octets.length 4 ++ octets ++ leBytes counter 6

/-- The tag: the first 8 octets of the CMAC (R104). -/
def sealTag (key : List Byte) (inbound : Bool) (node : Byte) (tenant kind stream : Nat) (octets : List Byte)
    (counter : Nat) : List Byte :=
  (cmac key (sealString inbound node tenant kind stream octets counter)).take 8

end Sys2Proof.Machine
end

