-- ==== Sys2Proof/Machine/Memory.lean ====
section
/-! DEFINITION. Sparse octet memory in canonical form, and the store's octets through it (R612, R613, R617, R630). -/
namespace Sys2Proof.Machine

/-- The octet at an address; `dflt` is what an unlisted address reads as. -/
def Mem.read (dflt : Nat → Byte) (m : List Host.Cell) (a : Nat) : Byte :=
  match m with
  | [] => dflt a
  | (k, v) :: r => if k = a then v else Mem.read dflt r a

/-- The memory with one octet written; the canonical form of `Mem.wf` is kept. -/
def Mem.write (dflt : Nat → Byte) (m : List Host.Cell) (a : Nat) (b : Byte) : List Host.Cell :=
  match m with
  | [] => if b = dflt a then [] else [(a, b)]
  | (k, v) :: r =>
    if a < k then (if b = dflt a then (k, v) :: r else (a, b) :: (k, v) :: r)
    else if a = k then (if b = dflt a then r else (a, b) :: r)
    else (k, v) :: Mem.write dflt r a b

/-- Consecutive octets written from an address. -/
def Mem.writeList (dflt : Nat → Byte) (m : List Host.Cell) (a : Nat) : List Byte → List Host.Cell
  | [] => m
  | b :: r => Mem.writeList dflt (Mem.write dflt m a b) (a + 1) r

/-- `n` octets read from an address. -/
def Mem.readList (dflt : Nat → Byte) (m : List Host.Cell) (a : Nat) : Nat → List Byte
  | 0 => []
  | n + 1 => Mem.read dflt m a :: Mem.readList dflt m (a + 1) n

/-- Every listed address is below the bound given for it by its successor. -/
def Mem.rising : List Host.Cell → Bool
  | [] => true
  | [_] => true
  | (k, _) :: (k', v') :: r => k < k' && Mem.rising ((k', v') :: r)

/-- The canonical form: addresses strictly rising, no entry equal to what its address reads as unlisted. -/
def Mem.wf (dflt : Nat → Byte) (m : List Host.Cell) : Bool :=
  Mem.rising m && m.all (fun c => c.2 ≠ dflt c.1)

/-- What an unlisted store offset reads as: 0xFF in the shown and target planes (R479: a board that shows nothing holds
0xF), 0 elsewhere (R303, R580 and the zero counters and ledger of a new part). DESIGN CHOICE: log 4. -/
def storeDefault (a : Nat) : Byte := if a < 0x00C00000 then 0xFF else 0

/-- What an unlisted fuse byte reads as: unburned (Table 3.1). -/
def fuseDefault (_ : Nat) : Byte := 0

/-- The canonical form of the store's octets. -/
def Memory.wf (m : List Host.Cell) : Bool := Mem.wf storeDefault m

/-- Page of an offset (4 KiB pages). -/
def pageOf (off : Nat) : Nat := off / 4096

/-- Where accesses to an offset go: the spare page of a remapped page, else the page itself (R630). A spare that wore
out in its turn is followed (R632); `fuel` bounds the chain. -/
def remapOffset (remap : List (Nat × Nat)) : Nat → Nat → Nat
  | 0, off => off
  | fuel + 1, off =>
    match remap.find? (fun e => e.1 = pageOf off) with
    | some e => remapOffset remap fuel (4096 * e.2 + off % 4096)
    | none => off

/-- The physical offset of a store offset. -/
def Store.phys (s : Store) (off : Nat) : Nat := remapOffset s.remap s.remap.length off

/-- The octet at a store offset. -/
def Store.read (s : Store) (off : Nat) : Byte := Mem.read storeDefault s.mem (s.phys off)

/-- `n` octets from a store offset. -/
def Store.readList (s : Store) (off : Nat) : Nat → List Byte
  | 0 => []
  | n + 1 => s.read off :: s.readList (off + 1) n

/-- An offset whose page is retired is never written (R634). -/
def Store.isRetired (s : Store) (off : Nat) : Bool := s.retired.contains (pageOf (s.phys off))

/-- One octet written: to the page, and to the spare as well while a remap copies it (R630); not to a retired page. -/
def Store.write (s : Store) (off : Nat) (b : Byte) : Store :=
  if s.isRetired off then s
  else
    let p := s.phys off
    let m := Mem.write storeDefault s.mem p b
    { s with mem :=
        match s.remapping.find? (fun e => e.1 = pageOf p) with
        | some e => Mem.write storeDefault m (4096 * e.2 + p % 4096) b
        | none => m }

/-- Consecutive octets written. -/
def Store.writeList (s : Store) (off : Nat) : List Byte → Store
  | [] => s
  | b :: r => (s.write off b).writeList (off + 1) r

/-- Offset and nibble of a board pixel in a plane (R613). -/
def pixelOffset (x y : Nat) : Nat := y * 2048 + x / 2

/-- Start of the shown plane, the target plane and the ledger (Table 15.1). -/
def shownBase : Nat := 0x00000000
def targetBase : Nat := 0x00600000
def ledgerBase : Nat := 0x00C00000

/-- The 4-bit value of a pixel in the plane that starts at `base` (R613). -/
def Store.pixel (s : Store) (base x y : Nat) : BitVec 4 :=
  let b := s.read (base + pixelOffset x y)
  if x % 2 = 0 then b.setWidth 4 else (b >>> 4).setWidth 4

/-- A pixel set in a plane (R613). -/
def Store.setPixel (s : Store) (base x y : Nat) (v : BitVec 4) : Store :=
  let off := base + pixelOffset x y
  let b := s.read off
  s.write off (if x % 2 = 0 then (b >>> 4).setWidth 4 ++ v else v ++ b.setWidth 4)

/-- The ledger of a pixel (R613). -/
def Store.ledger (s : Store) (x y : Nat) : Int := (s.read (ledgerBase + y * 4096 + x)).toInt

/-- The ledger of a pixel set, saturated to ±127 (R412). -/
def saturateLedger (v : Int) : Int := max (-127) (min 127 v)

/-- The ledger of a pixel set. -/
def Store.setLedger (s : Store) (x y : Nat) (v : Int) : Store :=
  s.write (ledgerBase + y * 4096 + x) (BitVec.ofInt 8 (saturateLedger v))

/-- A pixel is frozen when its shown, target or ledger word lies in a retired page (Table 15.4). -/
def Store.frozen (s : Store) (x y : Nat) : Bool :=
  s.isRetired (shownBase + pixelOffset x y) || s.isRetired (targetBase + pixelOffset x y)
    || s.isRetired (ledgerBase + y * 4096 + x)

/-- Region code of an offset (Tables 15.1, 15.2). -/
def regionCode (off : Nat) : Nat :=
  let p := pageOf off
  if p < 1536 then 1
  else if p < 3072 then 2
  else if p < 6144 then 3
  else if p < 6160 then 4
  else if p < 6178 then 5
  else if p < 6196 then 7
  else if p < 6197 then 8
  else if p < 6200 then 0
  else if p < 6400 then 6
  else if p < 6912 then 9
  else if p < 7424 then 10
  else 0

/-- Start of the system region (Table 15.1), of its parts (Table 15.2), and of the waveform store. -/
def boxBase : Nat := 0x01800000
def ringABase : Nat := 0x01810000
def ringBBase : Nat := 0x01818000
def bootBaseA : Nat := 0x01820000
def bootBaseB : Nat := 0x01821000
def waveBase : Nat := 0x01900000

/-- The 64-bit word of an offset cannot be corrected (R622). -/
def Store.isBad (s : Store) (off : Nat) : Bool := s.bad.contains (s.phys off / 8 * 8)

end Sys2Proof.Machine
end

