-- ==== Sys2Proof/Machine/Setup.lean ====
section
/-! DEFINITION. What the straps, value resistors and fuses set: the tables of 02_straps.md, and the named readings of the
latched codes. -/
namespace Sys2Proof.Machine

/-! ## Input pins and their internal pulls (Table 16.3) -/

/-- The input pins that have an internal pull; each name stands for every pin of its row of Table 16.3. -/
inductive InputPin where
  | crx
  | courierCs
  /-- CPx_SCK and CPx_SI -/
  | courierIn
  | hvgood
  /-- HVSRC, CPMODE, REFSEL, FUSEEN -/
  | logicStrap
  | resetPin
  /-- WAKE# and DOZE# -/
  | wakeDoze
  /-- TCK and TRST# -/
  | tapDown
  /-- TMS and TDI -/
  | tapUp
deriving DecidableEq, Repr

/-- The pull is a pull-up (R34, R597, R645). -/
def InputPin.pulledUp : InputPin → Bool
  | .crx | .courierCs | .resetPin | .wakeDoze | .tapUp => true
  | .courierIn | .hvgood | .logicStrap | .tapDown => false

/-- What an input reads: the level that drives it, or, left open (`none`), that of its pull, so that an open logic strap reads
0 (R34) and an open WAKE# or DOZE# is negated (R597). -/
def InputPin.reads (p : InputPin) (level : Option Bool) : Bool := level.getD p.pulledUp

/-- A table entry by code, 0 past its end. -/
def tab (l : List Nat) (i : Nat) : Nat := l.getD i 0

/-- Window minima and maxima of Table 2.2. -/
def windowLo : List Nat :=
  [0, 362, 520, 723, 979, 1292, 1653, 2037, 2427, 2793, 3107, 3365, 3568, 3719, 3831, 4055]
def windowHi : List Nat :=
  [40, 382, 548, 759, 1025, 1346, 1713, 2099, 2487, 2845, 3151, 3401, 3596, 3739, 3847, 4095]

/-- The code whose window holds a count (Table 2.2). -/
def codeOfCount (n : Nat) : Option (Fin 16) :=
  (List.finRange 16).find? fun c => tab windowLo c ≤ n && n ≤ tab windowHi c

/-- A code its table marks reserved (R43): TILEY 8–14 and QUOTA 8–14, at indices 8 and 12 of Table 2.3. -/
def codeReserved (strap : Nat) (c : Fin 16) : Bool :=
  (strap = 7 || strap = 11) && 8 ≤ c.val && c.val ≤ 14

/-- What a coded strap reads (R40 to R43); straps are numbered from 0 here, one below Table 2.3's index. -/
def strapCode (strap : Nat) (r : StrapReading) : Option (Fin 16) :=
  match codeOfCount r.c0.toNat with
  | none => none
  | some c =>
    if codeOfCount r.c1.toNat = some c ∧ codeOfCount r.c2.toNat = some c ∧ codeOfCount r.c3.toNat = some c
        ∧ r.overRef = false ∧ codeReserved strap c = false then some c else none

/-- The code of a strap as latched, 0 while ambiguous or unsampled. -/
def Setup.code (u : Setup) (i : Nat) : Nat := ((u.codes.toList.getD i none).getD 0).val

/-- The strap was sampled and read one code. -/
def Setup.known (u : Setup) (i : Nat) : Bool := (u.codes.toList.getD i none).isSome

/-- Node number (R44); 0x7F stands for one that cannot be read (R80). -/
def State.node (s : State) : Nat :=
  if s.setup.known 0 && s.setup.known 1 then 16 * (s.setup.code 0 % 8) + s.setup.code 1 else 0x7F

/-- Listen-only on both channels (R45). -/
def State.listenOnly (s : State) : Bool := s.setup.known 0 && 8 ≤ s.setup.code 0

/-- Nominal rate in kbit/s and data-phase rate in Mbit/s by BUSRATE code (Table 2.4); 0: no bit-rate switch. -/
def nominalRate (code : Nat) : Nat :=
  tab [125, 250, 500, 1000, 125, 250, 250, 500, 500, 500, 500, 500, 1000, 1000, 1000, 0] code
def dataRate (code : Nat) : Nat := tab [0, 0, 0, 0, 1, 1, 2, 1, 2, 4, 5, 8, 2, 4, 8, 0] code

/-- The classical codes of R126. -/
def State.classical (s : State) : Bool := s.setup.code 2 ≤ 3 || s.setup.code 2 = 15

/-- Listen-and-match (R47). -/
def State.listenMatch (s : State) : Bool := s.setup.code 2 = 15

/-- Nominal and data-phase sample points in 0.1 % (Table 2.5). -/
def nominalPoint (code : Nat) : Nat := tab [875, 800, 750, 700] (code % 4)
def dataPoint (code : Nat) : Nat := tab [750, 750, 700, 700] (code % 4)

/-- Bit timing of a phase: BRP in 5 ns units, TSEG1, TSEG2 and SJW in time quanta, and TDC. -/
structure BitTiming where
  brp : Nat
  tseg1 : Nat
  tseg2 : Nat
  sjw : Nat
  tdc : Bool
deriving DecidableEq, Repr

/-- Nominal-phase timing (R129, Table 4.2). -/
def nominalTiming (rate point : Nat) : BitTiming :=
  let t2 := if point = 875 then 5 else if point = 800 then 8 else if point = 750 then 10 else 12
  { brp := 5000 / rate, tseg1 := 39 - t2, tseg2 := t2, sjw := t2, tdc := false }

/-- Data-phase timing (R130, Table 4.3). -/
def dataTiming (rate point : Nat) : BitTiming :=
  let hi := point = 750
  match rate with
  | 1 => { brp := 5, tseg1 := if hi then 29 else 27, tseg2 := if hi then 10 else 12, sjw := if hi then 10 else 12,
           tdc := false }
  | 2 => { brp := 5, tseg1 := if hi then 14 else 13, tseg2 := if hi then 5 else 6, sjw := if hi then 5 else 6,
           tdc := true }
  | 4 => { brp := 1, tseg1 := if hi then 37 else 34, tseg2 := if hi then 12 else 15, sjw := if hi then 12 else 15,
           tdc := true }
  | 5 => { brp := 1, tseg1 := if hi then 29 else 27, tseg2 := if hi then 10 else 12, sjw := if hi then 10 else 12,
           tdc := true }
  | _ => { brp := 1, tseg1 := if hi then 18 else 17, tseg2 := if hi then 6 else 7, sjw := if hi then 6 else 7,
           tdc := true }

/-- The timing a channel uses (R46, R48): nominal phase at its own or its matched rate, and data phase if any. -/
def State.timing (s : State) (c : Channel) : Option BitTiming × Option BitTiming :=
  let code := s.setup.code 2
  let rate := if code = 15 then nominalRate ((c.matched.getD c.tryRate).val) else nominalRate code
  (if rate = 0 then none else some (nominalTiming rate (nominalPoint (s.setup.code 3))),
   if dataRate code = 0 then none else some (dataTiming (dataRate code) (dataPoint (s.setup.code 3))))

/-- Secondary sample point for a measured delay in ns, when TDC is on (R131). -/
def secondaryPoint (t : BitTiming) (delay : Nat) : Nat := delay + (t.tseg1 + 1) * t.brp * 5

/-- Channel modes (Table 2.5): 0 single A, 1 single B, 2 redundant, 3 split. -/
def State.busMode (s : State) : Nat := s.setup.code 3 / 4

/-- A channel is in use (Table 4.4). -/
def State.inUse (s : State) (c : Chan) : Bool :=
  match c with
  | .a => s.busMode ≠ 1
  | .b => s.busMode ≠ 0

/-- Width and height of the ROM classes (Table 2.6). -/
def classWidth (c : Nat) : Nat :=
  tab [800, 1024, 1280, 1448, 1600, 1872, 2048, 2200, 2560, 2880, 3200, 3200, 3840, 4096] c
def classHeight (c : Nat) : Nat :=
  tab [600, 768, 960, 1072, 1200, 1404, 1536, 1650, 1920, 2160, 1800, 2400, 2160, 3072] c

/-- PCLASS. -/
def State.pclass (s : State) : Nat := s.setup.code 4

/-- Board width and height; `none` under PCLASS 15, and under PCLASS 14 while no valid set is held and in force (R49,
R394). -/
def State.boardSize (s : State) : Option (Nat × Nat) :=
  if s.setup.known 4 = false then none
  else if s.pclass ≤ 13 then some (classWidth s.pclass, classHeight s.pclass)
  else if s.pclass = 14 ∧ s.waves.inForce = .store ∧ s.waves.valid = true then
    some (leNat (s.store.readList (waveBase + 0x0C) 2) 0 2, leNat (s.store.readList (waveBase + 0x0E) 2) 0 2)
  else none

/-- Canvas origin (R52, R53). -/
def State.origin (s : State) : Nat × Nat :=
  match s.boardSize with
  | some (w, h) => if s.setup.code 7 ≤ 7 then (s.setup.code 6 * w, s.setup.code 7 * h) else (0, 0)
  | none => (0, 0)

/-- The node's canvas tile (R309). -/
def State.tile (s : State) : Option Rect :=
  s.boardSize.map fun (w, h) => ⟨s.origin.1, s.origin.2, s.origin.1 + w - 1, s.origin.2 + h - 1⟩

/-- Columns and rows of a LAYOUT (Table 2.7); LAYOUT 14 has none. -/
def layoutCols (c : Nat) : Nat := tab [1, 2, 2, 3, 4, 4, 5, 6, 8, 3, 4, 6, 8, 4, 0, 4] c
def layoutRows (c : Nat) : Nat := tab [1, 1, 2, 2, 2, 3, 4, 4, 4, 2, 3, 4, 4, 4, 0, 4] c

/-- What a tile shows (Table 2.7). -/
inductive TileDef where
  | plain (t : Tenant)
  | composite (a b : Tenant)
deriving DecidableEq, Repr

/-- A tenant number as a `Tenant`. -/
def tenantOf (n : Nat) : Tenant := ⟨n % 32, Nat.mod_lt _ (by decide)⟩

/-- The tile `k` of a LAYOUT, when it exists (Table 2.7). -/
def tileDef (layout k : Nat) : Option TileDef :=
  let pair := fun n => some (TileDef.composite (tenantOf n) (tenantOf (n + 1)))
  let plains := tab [1, 2, 4, 6, 8, 12, 20, 24, 32, 4, 8, 16, 16, 12, 0, 16] layout
  if k < plains then some (.plain (tenantOf k))
  else
    let j := k - plains
    match layout with
    | 9 => if j < 2 then pair (2 * j) else none
    | 10 => if j < 4 then pair (2 * j) else none
    | 11 => if j < 8 then pair (2 * j) else none
    | 12 => if j < 15 then pair j else none
    | 13 => if j < 4 then pair (2 * j) else none
    | _ => none

/-- LAYOUT, with 14 (no tiles) while it is not known. -/
def State.layout (s : State) : Nat := if s.setup.known 5 then s.setup.code 5 else 14

/-- Tile width and height (R478). -/
def State.tileSize (s : State) : Option (Nat × Nat) :=
  match s.boardSize with
  | some (w, h) =>
    if layoutCols s.layout = 0 then none
    else some (8 * (w / (8 * layoutCols s.layout)), (h - 32) / layoutRows s.layout)
  | none => none

/-- The node draws reading tiles (R51, R308, R480). -/
def State.drawsTiles (s : State) : Bool :=
  match s.tileSize with
  | some (w, h) => s.pclass ≠ 14 || (96 ≤ w && 142 ≤ h)
  | none => false

/-- Board rectangle of tile `k` (R478); tile 32 stands for the system rows (R308). -/
def State.tileRect (s : State) (k : Nat) : Option Rect :=
  match s.drawsTiles, s.tileSize, s.boardSize with
  | true, some (w, h), some (bw, bh) =>
    if k = 32 then some ⟨0, bh - 32, bw - 1, bh - 1⟩
    else if (tileDef s.layout k).isSome then
      let c := k % layoutCols s.layout
      let r := k / layoutCols s.layout
      some ⟨c * w, r * h, c * w + w - 1, r * h + h - 1⟩
    else none
  | _, _, _ => none

/-- Grid columns and rows and the NTC's B value (Table 2.9); no grid under codes 0 and 8. -/
def gridCols (c : Nat) : Nat := tab [0, 1, 2, 2, 3, 4, 4, 4] (c % 8)
def gridRows (c : Nat) : Nat := tab [0, 1, 1, 2, 2, 2, 3, 4] (c % 8)
def gridB (c : Nat) : Nat := if c < 8 then 3435 else 3950

/-- Declared hold-up energy of XHOLD in mJ (Table 2.10). -/
def xholdMJ (c : Nat) : Nat :=
  tab [0, 2, 5, 10, 20, 50, 100, 200, 500, 1000, 2000, 5000, 10000, 20000, 50000, 0] c

/-- Staleness multiplier and default hold-off in s (Table 2.11). -/
def State.staleMult (s : State) : Nat := tab [1, 2, 4, 8] (s.setup.code 10 / 4)
def State.holdOffDefault (s : State) : Nat := tab [0, 2, 10, 60] (s.setup.code 10 % 4)

/-- Docket quota of a tenant under BLANK (Table 2.12). -/
def quotaProfile (code t : Nat) : Nat :=
  match code with
  | 1 => if t = 0 then 512 else 48
  | 2 => if t < 16 then 96 else 32
  | 3 => if t < 8 then 128 else 32
  | 4 => if t = 0 ∨ t = 30 ∨ t = 31 then 256 else 32
  | 5 => if t < 4 then 256 else 36
  | 6 => 16
  | 7 => 32
  | _ => 64

/-! ## Value resistors -/

/-- Valid range of a value resistor in ohms, by the order of R79 (Table 2.14). -/
def valueLo (i : Nat) : Nat := tab [22500, 5000, 1000, 3000, 26000, 0] i
def valueHi (i : Nat) : Nat := tab [80000, 100000, 100000, 28000, 52000, 100000] i

/-- A resistance lies in its valid range. Open is out of range, but for VLCDTC, which above 110 kΩ counts as in range
(R65). -/
def valueInRange (i : Nat) (r : Option Nat) : Bool :=
  match r with
  | none => i = 5
  | some v => (valueLo i ≤ v && v ≤ valueHi i) || (i = 5 && 110000 < v)

/-- More than 3 % outside the valid range (R67). -/
def valueFarOut (i : Nat) (r : Option Nat) : Bool :=
  match r with
  | none => true
  | some v => 100 * v < 97 * valueLo i || 103 * valueHi i < 100 * v

/-- A value held at the nearest limit of its range (R68, R681). -/
def valueClamped (i : Nat) (r : Option Nat) : Nat :=
  match r with
  | none => valueHi i
  | some v => max (valueLo i) (min (valueHi i) v)

/-- VHOLD target in mV (Table 2.14). -/
def State.vholdTarget (s : State) : Nat := valueClamped 0 (s.setup.live.toList.getD 0 none) / 5

/-- Charge current limit in µA (Table 2.14). -/
def State.chargeCurrent (s : State) : Nat := 2000000000 / valueClamped 1 (s.setup.live.toList.getD 1 none)

/-- The EPANE resistance in use, in ohms: 20 µJ/(Mpixel·frame) per kΩ; 2,000 µJ when out of range (R70). -/
def State.epaneOhms (s : State) : Nat :=
  let r := s.setup.sampled.toList.getD 2 none
  if valueInRange 2 r then r.getD 100000 else 100000

/-- VCOM magnitude in µV, negative going (Table 2.14, R36). -/
def State.vcomMicro (s : State) : Nat := 100 * valueClamped 3 (s.setup.live.toList.getD 3 none)

/-- V_LCD for a sensor temperature in 1/16 °C, in 1/80,000 mV, clamped (R64 to R66, R681). -/
def State.vlcdAt (s : State) (t : Int) : Int :=
  let r4 := valueClamped 4 (s.setup.live.toList.getD 4 none)
  let slope : Nat :=
    match s.setup.live.toList.getD 5 none with
    | none => 0
    | some v => if v ≤ 100000 then v else 0
  max (2600 * 80000) (min (5200 * 80000) ((8000 * r4 : Int) - slope * (t - 400)))

/-- A millisecond of uptime after `n` seconds. -/
def ms (n : Nat) : Nat := 1000 * n

end Sys2Proof.Machine
end

