-- ==== Sys2Proof/Machine/Operands.lean ====
section
/-! DEFINITION. The forms a letter takes: identifier fields (Table 6.1), header and body fields (Tables 6.4 to 6.17), and
the field checks of R228, R234, R235, R684 and R389. -/
namespace Sys2Proof.Machine

/-! ## The identifier (Table 6.1) -/

def idGroup (i : BitVec 29) : BitVec 3 := i.extractLsb' 26 3
def idSub (i : BitVec 29) : BitVec 3 := i.extractLsb' 23 3
def idRoute (i : BitVec 29) : BitVec 2 := i.extractLsb' 21 2
def idNode (i : BitVec 29) : BitVec 7 := i.extractLsb' 14 7
def idTenant (i : BitVec 29) : Tenant := ⟨(i.extractLsb' 9 5).toNat, (i.extractLsb' 9 5).isLt⟩
def idKind (i : BitVec 29) : BitVec 5 := i.extractLsb' 4 5
def idStream (i : BitVec 29) : BitVec 4 := i.extractLsb' 0 4

/-- The identifier with the fields of Table 6.1. -/
def mkIdent (group sub : BitVec 3) (route : BitVec 2) (node : BitVec 7) (tenant : Tenant) (kind : BitVec 5)
    (stream : BitVec 4) : BitVec 29 :=
  group ++ sub ++ route ++ node ++ BitVec.ofNat 5 tenant.val ++ kind ++ stream

/-- The reassembly key of a fragment (R217). -/
def idKey (i : BitVec 29) : CtxKey := ⟨idRoute i, idNode i, idTenant i, idStream i⟩

/-! ## Kinds -/

/-- The inbound kinds (Table 6.10). -/
inductive Kind where
  | post
  | peek
  | reading
  | map
  | stamp
  | release
  | weigh
  | subscribe
  | recall
  | waveset
  | enquiry
  | acknowledge
deriving DecidableEq, Repr

/-- Kind of a KIND code, when it is an inbound one. -/
def Kind.ofCode (c : BitVec 5) : Option Kind :=
  match c.toNat with
  | 1 => some .post
  | 2 => some .peek
  | 3 => some .reading
  | 4 => some .map
  | 5 => some .stamp
  | 6 => some .release
  | 7 => some .weigh
  | 8 => some .subscribe
  | 9 => some .recall
  | 10 => some .waveset
  | 11 => some .enquiry
  | 12 => some .acknowledge
  | _ => none

/-- Allowed on ROUTE 0b01 (Table 6.10). -/
def Kind.canvasWide : Kind → Bool
  | .peek | .subscribe | .enquiry | .acknowledge => false
  | .post | .reading | .map | .stamp | .release | .weigh | .recall | .waveset => true

/-- Smallest and largest BODYLEN (Table 6.10). -/
def Kind.bodyMin : Kind → Nat
  | .post => 17 | .peek => 12 | .reading => 44 | .map => 16 | .stamp => 32 | .release => 4 | .weigh => 4
  | .subscribe => 20 | .recall => 4 | .waveset => 1 | .enquiry => 0 | .acknowledge => 8
def Kind.bodyMax : Kind → Nat
  | .post => 6291472 | .peek => 12 | .reading => 44 | .map => 16 | .stamp => 32 | .release => 4 | .weigh => 4
  | .subscribe => 20 | .recall => 4 | .waveset => 2097152 | .enquiry => 0 | .acknowledge => 8

/-- Express letters (R256). -/
def Kind.express : Kind → Bool
  | .release | .weigh | .recall => true
  | .post | .peek | .reading | .map | .stamp | .subscribe | .waveset | .enquiry | .acknowledge => false

/-- RIGHTS bit of a kind, counted within the field (R86, Table 3.3); `none` where no right is needed or none grants it. -/
def Kind.rightsBit : Kind → Option Nat
  | .post => some 0 | .peek => some 1 | .reading => some 2 | .map => some 3 | .stamp => some 4 | .release => some 5
  | .weigh => some 6 | .subscribe => some 7 | .recall => none | .waveset => none | .enquiry => none
  | .acknowledge => none

/-- Kinds reserved to the postmaster (R87). -/
def Kind.postmaster : Kind → Bool
  | .recall | .waveset => true
  | .post | .peek | .reading | .map | .stamp | .release | .weigh | .subscribe | .enquiry | .acknowledge => false

/-- Outbound KIND codes (Table 6.20). -/
def kReceipt : BitVec 5 := 0x10
def kAnswer : BitVec 5 := 0x11
def kNotice : BitVec 5 := 0x12
def kStatus : BitVec 5 := 0x13
def kRollcall : BitVec 5 := 0x14
def kWeight : BitVec 5 := 0x15

/-! ## Receipt status codes (Table 6.19) -/

def stDelivered : Byte := 0x00
def stAccepted : Byte := 0x01
def stHeld : Byte := 0x02
def stUndeliverable : Byte := 0x10
def stOutside : Byte := 0x11
def stProtected : Byte := 0x12
def stMalformed : Byte := 0x13
def stSealFailed : Byte := 0x14
def stStale : Byte := 0x15
def stQuota : Byte := 0x16
def stSuspended : Byte := 0x17
def stRecalled : Byte := 0x18
def stTorn : Byte := 0x19
def stWeather : Byte := 0x1A
def stNotPermitted : Byte := 0x1B
def stTooLarge : Byte := 0x1C

/-- A refusal: its status and DETAIL[31:8]. -/
structure Verdict where
  status : Byte
  detail : Nat
deriving DecidableEq, Repr

/-- MALFORMED with a reason of Table 6.21. -/
def malformed (reason : Nat) : Verdict := ⟨stMalformed, reason⟩

/-! ## The header (Table 6.4) -/

/-- Octets of the header, and of a seal trailer. -/
def headerLen : Nat := 8
def sealLen : Nat := 14

def hSealed (o : List Byte) : Bool := (octet o 1).getLsbD 0
def hRmode (o : List Byte) : Nat := (octet o 1).toNat / 2 % 4
def hNumber (o : List Byte) : Nat := leNat o 2 2
def hBodyLen (o : List Byte) : Nat := leNat o 4 4

/-- The octets of the whole letter but its CHECK, as its header gives them. -/
def hLetterLen (o : List Byte) : Nat := headerLen + hBodyLen o + (if hSealed o then sealLen else 0)

/-- Orders 3 and 4 of Table 6.5: VERSION, HFLAGS, BODYLEN. -/
def headerFault (k : Kind) (o : List Byte) : Option Verdict :=
  if octet o 0 ≠ 1 then some (malformed 5)
  else if 8 ≤ (octet o 1).toNat then some (malformed 4)
  else if k.bodyMax < hBodyLen o then some ⟨stTooLarge, 0⟩
  else if hBodyLen o < k.bodyMin then some (malformed 8)
  else none

/-- Octets of a letter's body. -/
def bodyOf (o : List Byte) : List Byte := (o.drop headerLen).take (hBodyLen o)

/-- COUNTER and TAG of the seal trailer. -/
def sealCounter (o : List Byte) : Nat := leNat o (headerLen + hBodyLen o) 6
def sealTagOf (o : List Byte) : List Byte := (o.drop (headerLen + hBodyLen o + 6)).take 8

/-- Shelf claim in granules for a number of letter octets (R267). -/
def granules (n : Nat) : Nat := (n + 63) / 64

/-! ## Letters as judged -/

def Letter.kind (l : Letter) : Option Kind := Kind.ofCode (idKind l.ident)
def Letter.tenant (l : Letter) : Tenant := idTenant l.ident
def Letter.number (l : Letter) : Nat := hNumber l.octets
def Letter.rmode (l : Letter) : Nat := hRmode l.octets
def Letter.isSealed (l : Letter) : Bool := hSealed l.octets
def Letter.body (l : Letter) : List Byte := bodyOf l.octets

/-- R272: letter number `a` precedes letter number `b`. -/
def precedes (a b : Nat) : Bool :=
  let d := (b + 65536 - a) % 65536
  1 ≤ d && d ≤ 32767

/-! ## Body fields -/

def bBox (b : List Byte) : Nat := leNat b 0 2
def postX (b : List Byte) : Nat := leNat b 2 2
def postY (b : List Byte) : Nat := leNat b 4 2
def postW (b : List Byte) : Nat := leNat b 6 2
def postH (b : List Byte) : Nat := leNat b 8 2
def postCoding (b : List Byte) : Nat := (octet b 0x0A).toNat
def postMode (b : List Byte) : Nat := (octet b 0x0B).toNat % 16
def postTag (b : List Byte) : Nat := leNat b 0x0C 2
def postPixels (b : List Byte) : List Byte := b.drop 16
def peekPlane (b : List Byte) : Nat := (octet b 0).toNat
def peekBox (b : List Byte) : Nat := leNat b 2 2
def peekX (b : List Byte) : Nat := leNat b 4 2
def peekY (b : List Byte) : Nat := leNat b 6 2
def peekW (b : List Byte) : Nat := leNat b 8 2
def peekH (b : List Byte) : Nat := leNat b 0x0A 2
def rdValue (b : List Byte) : Int := leInt b 0 4
def rdDec (b : List Byte) : Nat := (octet b 4).toNat
def rdUnit (b : List Byte) : Nat := (octet b 5).toNat
def rdInterval (b : List Byte) : Nat := leNat b 6 2
def rdMin (b : List Byte) : Int := leInt b 0x08 4
def rdMax (b : List Byte) : Int := leInt b 0x0C 4
def rdAlo (b : List Byte) : Int := leInt b 0x10 4
def rdAhi (b : List Byte) : Int := leInt b 0x14 4
def rdFlags (b : List Byte) : Nat := (octet b 0x18).toNat
def rdLabel (b : List Byte) : List Byte := (b.drop 0x1C).take 16
def mapDistrict (b : List Byte) : Nat := (octet b 2).toNat
def mapOp (b : List Byte) : Nat := (octet b 3).toNat
def mapRect (b : List Byte) : Rect := ⟨leNat b 4 2, leNat b 6 2, leNat b 8 2, leNat b 0x0A 2⟩
def stampMask (b : List Byte) : Nat := leNat b 0 4
def stampPattern (b : List Byte) (n : Nat) : Nat :=
  let o := (octet b (4 + n / 2)).toNat
  if n % 2 = 0 then o % 16 else o / 16
def stampLife (b : List Byte) : Nat := leNat b 0x14 4
def stampFallbackBits (b : List Byte) : Nat := leNat b 0x18 4
def relTag (b : List Byte) : Nat := leNat b 0 2
def relForm (b : List Byte) : Nat := (octet b 2).toNat
def recallTarget (b : List Byte) : Nat := (octet b 0).toNat
def subMask (b : List Byte) : Nat := leNat b 0 8
def subValue (b : List Byte) : Nat := leNat b 8 8
def subSub (b : List Byte) : Nat := (octet b 0x10).toNat
def subFlags (b : List Byte) : Nat := (octet b 0x11).toNat
def ackClear (b : List Byte) : Nat := leNat b 0 8

/-- `n` octets from `i` are all zero. -/
def zeros (b : List Byte) (i n : Nat) : Bool := leNat b i n = 0

/-- LABEL: printable octets, then zero octets (R241). -/
def labelOk : List Byte → Bool
  | [] => true
  | c :: r => if c = 0 then r.all (· = 0) else 0x20 ≤ c.toNat && c.toNat ≤ 0x7E && labelOk r

/-! ## Pixel data -/

/-- Length of raw pixel data (R236). -/
def rawLen (w h : Nat) : Nat := h * ((w + 1) / 2)

/-- Reads a run-coded body to its first fault (R237, R238): reason 6 or 7, or none. `left` pixels are still missing;
`fuel` bounds the tokens. -/
def runFault : Nat → Nat → List Byte → Option Nat
  | 0, left, _ => if left = 0 then none else some 7
  | _ + 1, left, [] => if left = 0 then none else some 7
  | fuel + 1, left, t :: r =>
    let n := t.toNat % 16
    if n = 0 then some 6
    else if n < 15 then (if left < n then some 7 else runFault fuel (left - n) r)
    else
      match r with
      | a :: b :: r' =>
        let run := 15 + a.toNat + 256 * b.toNat
        if left < run then some 7 else runFault fuel (left - run) r'
      | _ => some 6

/-- The pixel at raster position `i` of a run-coded body. -/
def runPixel : Nat → Nat → List Byte → BitVec 4
  | 0, _, _ => 0
  | _ + 1, _, [] => 0
  | fuel + 1, i, t :: r =>
    let n := t.toNat % 16
    let v : BitVec 4 := (t >>> 4).setWidth 4
    if n < 15 then (if i < n then v else runPixel fuel (i - n) r)
    else
      match r with
      | a :: b :: r' =>
        let run := 15 + a.toNat + 256 * b.toNat
        if i < run then v else runPixel fuel (i - run) r'
      | _ => 0

/-- The pixel (x, y) of a POST's own rectangle (R236, R237). -/
def postPixel (b : List Byte) (x y : Nat) : BitVec 4 :=
  let p := postPixels b
  if postCoding b = 0 then
    let o := octet p (y * ((postW b + 1) / 2) + x / 2)
    if x % 2 = 0 then o.setWidth 4 else (o >>> 4).setWidth 4
  else runPixel p.length (y * postW b + x) p

/-! ## The waveform parcel (Tables 10.3, 10.4) -/

def wsLength (p : List Byte) : Nat := leNat p 0x08 4
def wsWidth (p : List Byte) : Nat := leNat p 0x0C 2
def wsHeight (p : List Byte) : Nat := leNat p 0x0E 2
def wsSdck (p : List Byte) : Nat := (octet p 0x10).toNat
def wsBands (p : List Byte) : Nat := (octet p 0x11).toNat
def wsFrame (p : List Byte) : Nat := leNat p 0x12 2
def wsModes (p : List Byte) : Nat := leNat p 0x14 2
def wsTail (p : List Byte) : Nat := (octet p 0x16).toNat
def wsModeLen (p : List Byte) (m : Nat) : Nat := (octet p (0x18 + m)).toNat
def wsBandLo (p : List Byte) (b : Nat) : Int := leInt p (0x28 + 2 * b) 2
def wsSetId (p : List Byte) : Nat := leNat p 0x4A 2

/-- Octets of the drive entry of `n` codes. -/
def codeOctets (n : Nat) : Nat := (n + 3) / 4

/-- Offset of a mode's drive data: the modes below it, `i` counting up. -/
def wsDriveAt (p : List Byte) : Nat → Nat
  | 0 => 0x50
  | m + 1 => wsDriveAt p m + wsBands p * 256 * codeOctets (wsModeLen p m)

/-- Offset of the tails, and the octets of a whole parcel. -/
def wsTailAt (p : List Byte) : Nat := wsDriveAt p 16
def wsTotal (p : List Byte) : Nat := wsTailAt p + wsBands p * 32 * codeOctets (wsTail p) + 4

/-- Code `f` (1 first) of the entry at an offset. -/
def wsCode (p : List Byte) (at' f : Nat) : BitVec 2 :=
  ((octet p (at' + (f - 1) / 4)) >>> (2 * ((f - 1) % 4))).setWidth 2

/-- Offset of a drive entry, and of a tail (`true`: P-tail). -/
def wsEntry (p : List Byte) (m b o n : Nat) : Nat :=
  wsDriveAt p m + (b * 256 + o * 16 + n) * codeOctets (wsModeLen p m)
def wsTailEntry (p : List Byte) (b v : Nat) (pos : Bool) : Nat :=
  wsTailAt p + (b * 32 + v * 2 + (if pos then 1 else 0)) * codeOctets (wsTail p)

/-- What a drive code counts (R411). -/
def codeDrive (c : BitVec 2) : Int := if c = 1 then 1 else if c = 2 then -1 else 0

/-- Net drive of frames 1 to `k` of an entry. -/
def wsNet (p : List Byte) (at' : Nat) : Nat → Int
  | 0 => 0
  | k + 1 => wsNet p at' k + codeDrive (wsCode p at' (k + 1))

/-- An entry of `len` codes holds no 0b11, ends with 0b00, and pads with zero. -/
def wsEntryOk (p : List Byte) (at' len : Nat) : Bool :=
  (List.range len).all (fun i => wsCode p at' (i + 1) ≠ 3)
    && (len = 0 || wsCode p at' len = 0)
    && (List.range (4 * codeOctets len - len)).all (fun i => wsCode p at' (len + i + 1) = 0)

/-- The checks of Table 10.4 that the parcel alone decides. DESIGN CHOICE: BANDLO entries from NBANDS on that are not 0, as
Table 10.3 has them, fail with reason 8 (log 76). -/
def parcelSound (p : List Byte) : Bool :=
  let bands := wsBands p
  leNat p 0 4 = 0x53574C50 && leNat p 4 2 = 1 && zeros p 6 2 && zeros p 0x17 1 && zeros p 0x4C 4
    && wsLength p = p.length
    && 8 ≤ wsWidth p && wsWidth p ≤ 4096 && wsWidth p % 8 = 0 && 1 ≤ wsHeight p && wsHeight p ≤ 3072
    && wsSdck p ≤ 1 && 1 ≤ bands && bands ≤ 16 && 1 ≤ wsTail p && wsTail p ≤ 64
    && (List.range 16).all (fun m => decide (wsModeLen p m ≠ 0) = (wsModes p).testBit m)
    && (wsModes p).testBit 0 && (wsModes p).testBit 1 && (wsModes p).testBit 2 && (wsModes p).testBit 15
    && wsTotal p = p.length
    && leNat p (p.length - 4) 4 = (crc32 (p.take (p.length - 4))).toNat
    && (List.range bands).all (fun b => wsBandLo p b < wsBandLo p (b + 1))
    && (List.range 17).all (fun b => b ≤ bands || wsBandLo p b = 0)
    && ((wsHeight p + 1) * (wsWidth p / 8 + 24) + 1000 * (if wsSdck p = 0 then 75 else 150)
          ≤ wsFrame p * (if wsSdck p = 0 then 75 else 150))
    && (List.range 16).all (fun m => (List.range (bands * 256)).all fun e =>
          wsEntryOk p (wsDriveAt p m + e * codeOctets (wsModeLen p m)) (wsModeLen p m))
    && (List.range (bands * 32)).all (fun e => wsEntryOk p (wsTailAt p + e * codeOctets (wsTail p)) (wsTail p))
    && (List.range bands).all (fun b => (List.range 16).all fun v =>
          wsNet p (wsTailEntry p b v false) (wsTail p) ≤ -1 && 1 ≤ wsNet p (wsTailEntry p b v true) (wsTail p))
    && (List.range bands).all (fun b => (List.range 16).all fun n =>
          wsNet p (wsEntry p 15 b 0 n) (wsModeLen p 15) = 0
            && (List.range 16).all fun o =>
              (List.range (codeOctets (wsModeLen p 15))).all fun i =>
                octet p (wsEntry p 15 b o n + i) = octet p (wsEntry p 15 b 0 n + i))

/-- The last check of Table 10.4: the parcel's geometry against PCLASS. -/
def State.parcelFits (s : State) (p : List Byte) : Bool :=
  s.pclass ≠ 15 && (s.pclass = 14 || (wsWidth p = classWidth s.pclass && wsHeight p = classHeight s.pclass))

/-! ## Order 8 of Table 6.5 -/

/-- Pass 1 of R684: reserved fields and bits, and enumerated fields. -/
def reservedFault (k : Kind) (b : List Byte) : Bool :=
  match k with
  | .post => 1 < postCoding b || 16 ≤ (octet b 0x0B).toNat || !zeros b 0x0E 2
  | .peek => 2 < peekPlane b || !zeros b 1 1
  | .reading => 0x11 < rdUnit b || 8 ≤ rdFlags b || !zeros b 0x19 3
  | .map => 1 < mapOp b || !zeros b 0x0C 4
  | .stamp => (List.range 32).any (fun n => 3 < stampPattern b n) || !zeros b 0x1C 4
  | .release => 1 < relForm b || !zeros b 3 1
  | .weigh => !zeros b 2 2
  | .recall => !zeros b 1 3
  | .subscribe => 8 ≤ subSub b || 2 ≤ subFlags b || !zeros b 0x12 2
  | .acknowledge => false
  | .enquiry => false
  | .waveset => false

/-- Pass 2 of R684: ranges (R241, R242, R318 to R320, R384, R685, R389). -/
def State.rangeFault (s : State) (k : Kind) (b : List Byte) : Bool :=
  match k with
  | .post => postW b = 0 || postH b = 0 || postMode b = 15
  | .peek => peekW b = 0 || peekH b = 0
  | .reading => 6 < rdDec b || rdInterval b = 0 || !(rdMin b < rdMax b) || !labelOk (rdLabel b)
  | .map =>
    let r := mapRect b
    (4096 ≤ bBox b && bBox b ≤ 0xFFEF)
      || (if mapOp b = 0 then 63 < mapDistrict b || r.x1 < r.x0 || r.y1 < r.y0
          else mapDistrict b ≠ 0 || r ≠ ⟨0, 0, 0, 0⟩)
  | .release => relTag b = 0
  | .weigh => relTag b = 0
  | .recall => recallTarget b = 0 || 31 < recallTarget b
  | .waveset => !(parcelSound b && s.parcelFits b)
  | .stamp => false
  | .subscribe => false
  | .acknowledge => false
  | .enquiry => false

/-- Pass 3 of R684: the pixel data of a POST (R236 to R238). -/
def pixelFault (k : Kind) (b : List Byte) : Option Nat :=
  match k with
  | .post =>
    let p := postPixels b
    if postCoding b = 0 then (if p.length = rawLen (postW b) (postH b) then none else some 7)
    else runFault (p.length + 1) (postW b * postH b) p
  | .peek | .reading | .map | .stamp | .release | .weigh | .subscribe | .recall | .waveset | .enquiry
  | .acknowledge => none

/-- Order 8 of Table 6.5 (R684): the reason, or none. -/
def State.bodyFault (s : State) (k : Kind) (route : BitVec 2) (b : List Byte) : Option Nat :=
  if route = 1 ∧ k.canvasWide = false then some 11
  else if reservedFault k b then some 4
  else if s.rangeFault k b then some 8
  else pixelFault k b

end Sys2Proof.Machine
end

