-- ==== Sys2Proof/Machine/StoreOps.lean ====
section
/-! DEFINITION. The store's bookkeeping (15_store.md): write transactions and wear, remapping and retirement, the counter
rings, the boot serial copies, the box table and the slots of the journal ring. -/
namespace Sys2Proof.Machine

/-! ## Wear (R624 to R629, R634) -/

/-- Wear threshold and write-back step in units (R627, R629). -/
def wearThreshold : Nat := 9000000000
def wearStep : Nat := 4096

/-- First page of the system region, and of the spare pool (Table 15.1). -/
def systemPage : Nat := 6144
def sparePage : Nat := 6912
def spareCount : Nat := 512

/-- A page that has not been written yet (R632). -/
def Wear.none : Wear := ⟨0, 0, []⟩

/-- The wear record of a page. -/
def Store.wearOf (s : Store) (page : Nat) : Wear :=
  match s.wear.find? (fun e => e.1 = page) with
  | some e => e.2
  | none => Wear.none

/-- The wear list with one page's record replaced, pages rising. -/
def wearInsert (page : Nat) (w : Wear) : List (Nat × Wear) → List (Nat × Wear)
  | [] => [(page, w)]
  | (k, v) :: r =>
    if page < k then (page, w) :: (k, v) :: r
    else if page = k then (page, w) :: r
    else (k, v) :: wearInsert page w r

/-- Spare pages neither entered in the remap table, nor being copied to, nor retired. -/
def Store.freeSpares (s : Store) : List Nat :=
  ((List.range spareCount).map (sparePage + ·)).filter fun p =>
    !(s.remap.any (·.2 = p)) && !(s.remapping.any (·.2 = p)) && !(s.retired.contains p)

/-- The page that a physical page serves: a spare serves the page whose entry names it. -/
def servedPage (remap : List (Nat × Nat)) : Nat → Nat → Nat
  | 0, p => p
  | fuel + 1, p =>
    match remap.find? (fun e => e.2 = p) with
    | some e => servedPage remap fuel e.1
    | none => p

/-- The store offset that a word serves: a spare page in use stands for the page it serves. -/
def Store.served (s : Store) (off : Nat) : Nat :=
  4096 * servedPage s.remap s.remap.length (pageOf off) + off / 8 * 8 % 4096

/-- The region code of a physical page. -/
def Store.pageRegion (s : Store) (page : Nat) : Nat := regionCode (4096 * servedPage s.remap s.remap.length page)

/-- A page is retired, and its region is degraded from the first such page on (R634, R636). -/
def Store.retire (s : Store) (page : Nat) : Store :=
  { s with retired := s.retired ++ [page]
           degraded := if s.degraded.contains (s.pageRegion page) then s.degraded
                       else s.degraded ++ [s.pageRegion page] }

/-- No further remap is made: a page of the remap table or of the wear counts is retired (Table 15.4). -/
def Store.remapStopped (s : Store) : Bool :=
  (List.range 18).any fun i => s.isRetired (4096 * (systemPage + 34 + i))

/-- A spare page that serves no page: its count begins at 0 once it is taken (R632). -/
def Store.idleSpare (s : Store) (page : Nat) : Bool := regionCode (4096 * page) = 10 && !(s.remap.any (·.2 = page))

/-- A page must be remapped: the copy into the lowest free spare starts, or the page is retired (R629, R634). -/
def Store.mustRemap (s : Store) (page : Nat) : Store :=
  if s.retired.contains page || s.remap.any (·.1 = page) || s.remapping.any (·.1 = page) || s.idleSpare page then s
  else if s.remapStopped then s.retire page
  else
    match s.freeSpares with
    | sp :: _ => { s with remapping := s.remapping ++ [(page, sp)] }
    | [] => s.retire page

/-- One write transaction's words on one page: the count advances when a word is written again (R626), by 1 or 10 units
(R625; log 8). -/
def Store.wearPage (s : Store) (page : Nat) (words : List Nat) : Store :=
  let w := s.wearOf page
  if words.any w.touched.contains then
    let n := w.count + (if Config.storeHot s.freeIx then 10 else 1)
    { s with wear := wearInsert page ⟨n, w.stored, words⟩ s.wear, freeIx := s.freeIx + 1 }
  else { s with wear := wearInsert page ⟨w.count, w.stored, w.touched ++ words⟩ s.wear }

/-- The physical words of `n` octets from an offset, as word numbers. -/
def Store.wordsOf (s : Store) (off n : Nat) : List Nat :=
  if n = 0 then []
  else (List.range ((off + n - 1) / 8 - off / 8 + 1)).map fun i => s.phys (8 * (off / 8 + i)) / 8

/-- Place of a page's count: 8 octets in pages 36 to 51 of the system region (Table 15.2). -/
def wearOffset (page : Nat) : Nat := 4096 * (systemPage + 36) + 8 * page

/-- The page that holds a page's count. -/
def Store.wearHolder (s : Store) (page : Nat) : Nat := pageOf (s.phys (wearOffset page))

/-- A page's count as it stands is put into the store. -/
def Store.putWear (s : Store) (page : Nat) : Store :=
  let w := s.wearOf page
  { s with wear := wearInsert page { w with stored := w.count } s.wear }.writeList (wearOffset page) (leBytes w.count 8)

/-- The longest chain of pages whose counts one count brings along: the page, the spare that serves its count's page, the
two pages that hold the spares' counts, the one that holds these pages' counts, and the spares that serve them. -/
def saveSpan : Nat := 8

/-- A page's count written into the store (R627): 8 octets in pages 36 to 51 of the system region, unless that page is
retired. The write wears the page that holds the count, which is saved and remapped in its turn. The counts of the pages that hold
counts stand in three of them, so that such a chain, remaps and all, comes back to a page that it has saved within
`saveSpan` pages. -/
def Store.saveWear (s : Store) : Nat → Nat → Store
  | 0, _ => s
  | fuel + 1, page =>
    if s.isRetired (wearOffset page) then s
    else
      let s := s.putWear page
      let q := s.wearHolder page
      let s := s.wearPage q [s.phys (wearOffset page) / 8]
      let s := if wearStep ≤ (s.wearOf q).count - (s.wearOf q).stored then s.saveWear fuel q else s
      if wearThreshold ≤ (s.wearOf q).count then s.mustRemap q else s

/-- The pages of some words, without repeats. -/
def pagesOf (words : List Nat) : List Nat := (words.map (· / 512)).eraseDups

/-- Counts that have advanced far enough are written, and pages at the threshold are remapped. -/
def Store.wearCheck (s : Store) (pages : List Nat) : Store :=
  pages.foldl (fun s p =>
    let s := if wearStep ≤ (s.wearOf p).count - (s.wearOf p).stored then s.saveWear saveSpan p else s
    if wearThreshold ≤ (s.wearOf p).count then s.mustRemap p else s) s

/-- A write transaction that wears these words. -/
def Store.wearWords (s : Store) (words : List Nat) : Store :=
  let words := words.filter fun w => !(s.retired.contains (w / 512))
  let pages := pagesOf words
  (pages.foldl (fun s p => s.wearPage p (words.filter (· / 512 = p))) s).wearCheck pages

/-- Found words without those of which a condition holds. -/
def dropFound (f : Findings) (p : Nat → Bool) : Findings := ⟨f.lost.filter fun o => !(p o), f.fixed.filter fun o => !(p o)⟩

/-- A write transaction: octets at offsets. A word written reads without error again; one on a retired page is not written
(R634). -/
def Store.put (s : Store) (ws : List (Nat × List Byte)) : Store :=
  let words := (ws.flatMap fun w => s.wordsOf w.1 w.2.length).filter fun w => !(s.retired.contains (w / 512))
  let s := ws.foldl (fun s w => s.writeList w.1 w.2) s
  { s with bad := s.bad.filter fun b => !(words.contains (b / 8))
           unread := dropFound s.unread fun o => words.contains (s.phys o / 8) }.wearWords words

/-- The words of one write that hold their new value when a loss of power cuts it (R618; log 75). -/
def cutWords (n : Nat) (w : Nat × List Byte) : List (Nat × List Byte) :=
  (List.range (w.2.length / 8 + 2)).filterMap fun i =>
    let word := w.1 / 8 + i
    let lo := max w.1 (8 * word)
    let hi := min (w.1 + w.2.length) (8 * word + 8)
    if lo < hi ∧ Config.cutWord n word = true then some (lo, (w.2.drop (lo - w.1)).take (hi - lo)) else none

/-- A write of several words that is cut: each word holds its old value or its new one (R618). -/
def Store.putCut (s : Store) (ws : List (Nat × List Byte)) : Store :=
  { s with freeIx := s.freeIx + 1 }.put (ws.flatMap (cutWords s.freeIx))

/-- A corrected word is written back (R621). -/
def Store.putBack (s : Store) (off : Nat) : Store :=
  if s.isBad off then s else s.put [(off / 8 * 8, s.readList (off / 8 * 8) 8)]

/-- 4,096 units more on every page of the store; that advance is written like any other (R627 to R629). -/
def Store.addMargin (s : Store) : Store :=
  let pages := List.range 7424
  { s with wear := pages.map fun p => (p, { s.wearOf p with count := (s.wearOf p).count + wearStep }) }.wearCheck pages

/-- The units that a collapse adds, which go before any other store write of the next cold start (R628). -/
def Store.marginFirst (s : Store) : Store := if s.collapsed then { s.addMargin with collapsed := false } else s

/-- Some pages with the pages that hold their counts, the holders' holders, and so on: a chain that soon closes, since the
counts of the pages that hold counts stand in three of them. -/
def Store.withHolders (s : Store) : Nat → List Nat → List Nat
  | 0, l => l
  | fuel + 1, l => s.withHolders fuel (l ++ l.map s.wearHolder).eraseDups

/-- Every count that has advanced is written (R627: entry to WATCH, closing time, reset), in one write transaction: the
advance that it brings to the pages that hold the counts is in the counts written (log 8). What a collapse adds goes
first (R628). -/
def Store.saveAllWear (s : Store) : Store :=
  let s := s.marginFirst
  let late := (s.wear.filter fun e => e.2.stored < e.2.count).map (·.1)
  let pages := (s.withHolders saveSpan late).filter fun p => !(s.isRetired (wearOffset p))
  let words := pages.map fun p => s.phys (wearOffset p) / 8
  let holders := pagesOf words
  let s := holders.foldl (fun s q => s.wearPage q (words.filter (· / 512 = q))) s
  let s := pages.foldl (fun s p => s.putWear p) s
  holders.foldl (fun s q => if wearThreshold ≤ (s.wearOf q).count then s.mustRemap q else s) s

/-- What a cold start makes of the counts: the stored ones (R627). -/
def Store.reloadWear (s : Store) : Store := { s with wear := s.wear.map fun e => (e.1, ⟨e.2.stored, e.2.stored, []⟩) }

/-- The spare page takes a page's octets, and starts with a count of 0 (R630, R632). -/
def Store.copyPage (s : Store) (page spare : Nat) : Store :=
  let octets := Mem.readList storeDefault s.mem (4096 * page) 4096
  { s with
    mem := Mem.writeList storeDefault s.mem (4096 * spare) octets
    wear := wearInsert spare Wear.none s.wear
    bad := s.bad.map fun b => if pageOf b = page then 4096 * spare + b % 4096 else b }

/-- Pages of the remap table, copies A and B (Table 15.2). -/
def remapPageA : Nat := systemPage + 34
def remapPageB : Nat := systemPage + 35

/-- A table copy written. -/
def Store.wearTable (s : Store) (pages : List Nat) : Store := s.wearWords (pages.map fun p => s.phys (4096 * p) / 8)

/-- The end of a remap copy: the entry goes into copy A and then into copy B, and accesses go to the spare (R630). Once no
further remap is made, the page is retired instead (Table 15.4). -/
def Store.remapEnd (s : Store) (page spare : Nat) : Store :=
  let s := { s with remapping := s.remapping.filter (·.1 ≠ page) }
  if s.remapStopped then s.retire page
  else
    let e := (page, spare)
    let s := s.copyPage page spare
    { s with remap := s.remap ++ [e], remapA := s.remapA ++ [e], remapB := s.remapB ++ [e] }.wearTable
      [remapPageA, remapPageB]

/-- The copy of the remap table that is used: the one with more entries (R631). -/
def Store.remapChoice (s : Store) : List (Nat × Nat) :=
  if s.remapA.length < s.remapB.length then s.remapB else s.remapA

/-- A word of a page cannot be corrected. -/
def Store.pageLost (s : Store) (page : Nat) : Bool := s.bad.any fun b => pageOf b = pageOf (s.phys (4096 * page))

/-- The remap table is taken: a copy that disagrees, or that has lost a word, is rewritten, unless its page is retired
(R631, R634). -/
def Store.takeRemap (s : Store) : Store :=
  let m := s.remapChoice
  let stale := fun (c : List (Nat × Nat)) (p : Nat) => (c ≠ m || s.pageLost p) && !(s.isRetired (4096 * p))
  let again := (if stale s.remapA remapPageA then [remapPageA] else []) ++ (if stale s.remapB remapPageB then [remapPageB] else [])
  { s with
    remap := m
    remapA := if again.contains remapPageA then m else s.remapA
    remapB := if again.contains remapPageB then m else s.remapB
    bad := s.bad.filter fun b => !(again.any fun p => pageOf b = pageOf (s.phys (4096 * p))) }.wearTable again

/-! ## Counter rings (R112, R115, R614) -/

/-- Slots of a ring: 8 pages of 512 words. -/
def ringSlots : Nat := 4096

/-- Pages of a ring that are not retired: those that it still writes (Table 15.4). -/
def Store.ringPages (s : Store) (base : Nat) : List Nat :=
  (List.range 8).filter fun i => !(s.isRetired (base + 4096 * i))

/-- The next slot of a ring from a place, past retired pages. -/
def Store.ringNext (s : Store) (base : Nat) : Nat → Nat → Nat
  | 0, n => n % ringSlots
  | fuel + 1, n =>
    if s.isRetired (base + 8 * (n % ringSlots)) then s.ringNext base fuel ((n / 512 + 1) * 512) else n % ringSlots

/-- The physical words of a ring that hold anything; those on a retired page are read like the others (R614; log 12). -/
def Store.ringWords (s : Store) (base : Nat) : List Nat :=
  let pages := (List.range 8).map fun i => pageOf (s.phys (base + 4096 * i))
  ((s.mem.filter fun c => pages.contains (pageOf c.1)).map (fun c => c.1 / 8 * 8)).eraseDups

/-- The tag of a counter in its ring word: tenant and direction. -/
def ringTag (t : Tenant) (outbound : Bool) : Nat := t.val + (if outbound then 32 else 0)

/-- The word that stands at a physical offset. -/
def Store.ringWord (s : Store) (a : Nat) : Nat := leNat (Mem.readList storeDefault s.mem a 8) 0 8

/-- The physical words of a counter in a ring. -/
def Store.ringOf (s : Store) (base tag : Nat) : List Nat := (s.ringWords base).filter fun a => s.ringWord a / 2 ^ 48 = tag

/-- The greatest value among some words. -/
def Store.ringTop (s : Store) (words : List Nat) : Nat := words.foldl (fun v a => max v (s.ringWord a % 2 ^ 48)) 0

/-- A ring does not read any more: fewer than two of its pages are not retired (Table 15.4). -/
def Store.ringDown (s : Store) (base : Nat) : Bool := (s.ringPages base).length < 2

/-- The words of a counter in a ring that read, and those that do not. -/
def Store.ringGood (s : Store) (base tag : Nat) : List Nat :=
  if s.ringDown base then [] else (s.ringOf base tag).filter fun a => !(s.bad.contains a)
def Store.ringLost (s : Store) (base tag : Nat) : List Nat :=
  if s.ringDown base then s.ringOf base tag else (s.ringOf base tag).filter s.bad.contains

/-- A ring tells a counter's value: it reads, and it holds a word of the counter that reads, or none at all. -/
def Store.ringTells (s : Store) (base tag : Nat) : Bool :=
  !(s.ringDown base) && (!(s.ringGood base tag).isEmpty || (s.ringLost base tag).isEmpty)

/-- A counter's value in a ring: the greatest among its words that read; one that does not is ignored (R614, Table 15.3). -/
def Store.ringValue (s : Store) (base tag : Nat) : Nat := s.ringTop (s.ringGood base tag)

/-- A counter by its tag: the greater of its copies, the values in the two rings (R112, R614). A stored counter never
decreases (R113): where the words that read would give less than one that does not, or than one that stood on a page
which a lost remap table redirected, no copy tells the counter (log 12). -/
def Store.counterOf (s : Store) (tag : Nat) : Option Nat :=
  let v := max (s.ringValue ringABase tag) (s.ringValue ringBBase tag)
  if !(s.untold.contains tag) && (s.ringTells ringABase tag || s.ringTells ringBBase tag)
      && s.ringTop (s.ringLost ringABase tag ++ s.ringLost ringBBase tag) ≤ v then some v
  else none

/-- A tenant's counter of a direction; `none` when its copies do not read (R112; log 12). -/
def Store.counter (s : Store) (t : Tenant) (outbound : Bool) : Option Nat := s.counterOf (ringTag t outbound)

/-- A slot of a ring holds the newest word of a counter other than `tag`: no other word of that counter is as great, one as
great that is lost apart (R113, R614; log 62). -/
def Store.ringKept (s : Store) (base tag slot : Nat) : Bool :=
  let a := s.phys (base + 8 * slot)
  let w := s.ringWord a
  w % 2 ^ 48 ≠ 0 && w / 2 ^ 48 ≠ tag
    && (s.ringOf base (w / 2 ^ 48)).all fun b =>
      b = a || s.ringWord b < w || (s.ringWord b = w && s.bad.contains b)

/-- The next slot of a ring that may be written. The counters are persistent and never fall (R109, R113, R115), so a slot
with the newest word of a counter is written again only once the counter's value stands afresh in the following slot, as
R616 has it for the journal; the slot of a counter that no copy tells is passed over (log 62). -/
def Store.ringClear (s : Store) (base tag : Nat) : Nat → Nat → Store × Nat
  | 0, n => (s, n)
  | fuel + 1, n =>
    if s.ringKept base tag n then
      let (t, m) := s.ringClear base tag fuel (s.ringNext base 9 (n + 1))
      let other := s.ringWord (s.phys (base + 8 * n)) / 2 ^ 48
      match s.counterOf other with
      | some v =>
        let t := t.put [(base + 8 * m, leBytes (v + 2 ^ 48 * other) 8)]
        t.ringClear base tag fuel (t.ringNext base 9 (m + 1))
      | none => (t, m)
    else (s, n)

/-- A counter change: the next slot of ring A and of ring B (R614). -/
def Store.setCounter (s : Store) (t : Tenant) (outbound : Bool) (v : Nat) : Store :=
  let tag := ringTag t outbound
  let w := leBytes (v % 2 ^ 48 + 2 ^ 48 * tag) 8
  let (s, a) := s.ringClear ringABase tag 65 (s.ringNext ringABase 9 s.ringA)
  let (s, b) := s.ringClear ringBBase tag 65 (s.ringNext ringBBase 9 s.ringB)
  { (s.put [(ringABase + 8 * a, w), (ringBBase + 8 * b, w)]) with
    ringA := (a + 1) % ringSlots, ringB := (b + 1) % ringSlots }

/-! ## Boot serial (R580, R581) -/

/-- A copy of the boot serial, when it reads, which a word found damaged does not, and its page is not retired (Table
15.4). -/
def Store.bootCopy (s : Store) (base : Nat) : Option Nat :=
  if s.isBad base || s.isRetired base || s.unread.lost.any (fun o => s.served o = base) then none
  else some (leNat (s.readList base 4) 0 4)

/-- The boot serial of the new boot. -/
def Store.nextBoot (s : Store) : BitVec 32 :=
  match s.bootCopy bootBaseA, s.bootCopy bootBaseB with
  | none, none => 0xFFFFFFFF
  | a, b =>
    let v := max (a.getD 0) (b.getD 0)
    if v = 0xFFFFFFFF then 0xFFFFFFFF else BitVec.ofNat 32 (v + 1)

/-- Both copies written. -/
def Store.setBoot (s : Store) (v : BitVec 32) : Store :=
  s.put [(bootBaseA, leBytes v.toNat 4), (bootBaseB, leBytes v.toNat 4)]

/-! ## Box table (Table 8.1) -/

def Store.boxOctets (s : Store) (b : Nat) : List Byte := s.readList (boxBase + 16 * b) 16
def Store.boxState (s : Store) (b : Nat) : Nat := (octet (s.boxOctets b) 9).toNat
def Store.boxDistrict (s : Store) (b : Nat) : Nat := (octet (s.boxOctets b) 8).toNat
def Store.boxRect (s : Store) (b : Nat) : Rect :=
  let o := s.boxOctets b
  ⟨leNat o 0 2, leNat o 2 2, leNat o 4 2, leNat o 6 2⟩

/-- R305: the entry is uncorrectable. -/
def Store.boxBad (s : Store) (b : Nat) : Bool :=
  1 < s.boxState b || !zeros (s.boxOctets b) 10 6 || s.isBad (boxBase + 16 * b) || s.isBad (boxBase + 16 * b + 8)

/-- The octets of an entry (R325). -/
def boxEntry (r : Rect) (district : Nat) (mapped : Bool) : List Byte :=
  if mapped then
    leBytes r.x0 2 ++ leBytes r.y0 2 ++ leBytes r.x1 2 ++ leBytes r.y1 2 ++ leBytes district 1 ++ leBytes 1 1
      ++ leBytes 0 6
  else leBytes 0 16

/-! ## The journal ring (R615, R616) -/

def journalPage : Nat := systemPage + 56
def journalSlots : Nat := 102400

/-- Offset of a slot. -/
def slotOffset (n : Nat) : Nat := 4096 * journalPage + 8 * n

/-- Pages of the journal ring that are not retired. -/
def Store.journalPages (s : Store) : Nat :=
  ((List.range 200).filter fun i => !(s.isRetired (4096 * (journalPage + i)))).length

/-- The first slot at or after a place that is on no retired page. -/
def Store.slotFrom (s : Store) : Nat → Nat → Nat
  | 0, n => n % journalSlots
  | fuel + 1, n =>
    if s.isRetired (slotOffset (n % journalSlots)) then s.slotFrom fuel ((n / 512 + 1) * 512) else n % journalSlots

/-- The next slot that may be written from slot `n` on: a kept entry that stands there gets a fresh copy in the following
slot first (R616). -/
def Store.clearSlots (s : Store) : Nat → Nat → Store × Nat
  | 0, n => (s, n)
  | fuel + 1, n =>
    if s.live.any (fun e => e.slot = n) then
      let (s, m) := s.clearSlots fuel (s.slotFrom 201 (n + 1))
      let s := { s with live := s.live.map fun (e : JSlot) => if e.slot = n then { e with slot := m } else e }
      (s.wearWords [s.phys (slotOffset m) / 8]).clearSlots fuel (s.slotFrom 201 (m + 1))
    else (s, n)

/-- A journal entry in the next slot from a place, kept when it belongs to a round or box write; the ring goes on after
it. -/
def Store.journalAt (s : Store) (start : Nat) (keep : Option (Nat × JEntry)) : Store × Nat :=
  let (s, n) := s.clearSlots (s.live.length + 1) (s.slotFrom 201 start)
  let s := { s with journalSlot := (n + 1) % journalSlots
                    live := match keep with
                            | some (r, e) => s.live ++ [(⟨n, r, e⟩ : JSlot)]
                            | none => s.live }
  (s.wearWords [s.phys (slotOffset n) / 8], n)

/-- A journal entry written once. -/
def Store.journal (s : Store) (keep : Option (Nat × JEntry)) : Store := (s.journalAt s.journalSlot keep).1

/-- A journal entry written twice: the second time in the next slot on a different page, after which the ring goes on
(R615; log 63). -/
def Store.journalTwice (s : Store) (round : Nat) (e : JEntry) : Store :=
  let (s, n) := s.journalAt s.journalSlot (some (round, e))
  (s.journalAt ((n / 512 + 1) * 512) (some (round, e))).1

/-- An entry of a round. -/
def JEntry.ofRound : JEntry → Bool
  | .first | .frame _ | .last | .rows _ => true
  | .box | .commit => false

/-- The entries of a round that has been written back are kept no longer. -/
def Store.journalDrop (s : Store) (round : Nat) : Store :=
  { s with live := s.live.filter (fun e => e.round ≠ round || !e.entry.ofRound) }

/-- The first `n` rows of a round are written back: each gives an entry (R471; log 63). -/
def Store.journalRows (s : Store) (round n : Nat) : Store :=
  (List.range n).foldl (fun s k => s.journal (some (round, .rows (k + 1)))) s

/-- The commit-start entries of POSTs that are in the journal no more. -/
def Store.dropCommits (s : Store) : Store :=
  { s with live := s.live.filter fun e => e.entry ≠ .commit || s.posts.any (·.job = e.round) }

end Sys2Proof.Machine
end

