-- ==== Sys2Proof/Machine/Notices.lean ====
section
/-! DEFINITION. Events of the notice desk (R525 to R528, R535, R540, R550), and access to the numbered parts of State. -/
namespace Sys2Proof.Machine

/-! ## Sources (Table 13.1) -/

def srcPowerResistor : Fin 64 := 0
def srcChargerOff : Fin 64 := 1
def srcWeighFailed : Fin 64 := 2
def srcEnergyShort : Fin 64 := 3
def srcEarmarkDropped : Fin 64 := 4
def srcTorn : Fin 64 := 5
def srcColdStart : Fin 64 := 6
def srcLimpClock : Fin 64 := 7
def srcPanelResistor : Fin 64 := 8
def srcBoardLoop : Fin 64 := 9
def srcStampLoop : Fin 64 := 10
def srcHvgoodTimeout : Fin 64 := 11
def srcHvgoodLost : Fin 64 := 12
def srcWavesetInvalid : Fin 64 := 13
def srcWavesetInstalled : Fin 64 := 14
def srcRailsRestored : Fin 64 := 15
def srcChannel (c : Chan) : Fin 64 := match c with | .a => 16 | .b => 17
def srcDuplicate : Fin 64 := 18
def srcOverrun : Fin 64 := 19
def srcProtocolException : Fin 64 := 20
def srcRateMatched : Fin 64 := 21
def srcCourierFault : Fin 64 := 22
def srcDeadLetter : Fin 64 := 23
def srcFaultState : Fin 64 := 24
def srcQuotaLimit : Fin 64 := 25
def srcPostmasterStrikes : Fin 64 := 26
def srcRefusalList : Fin 64 := 27
def srcRecallDone : Fin 64 := 28
def srcStrike : Fin 64 := 29
def srcShelfFull : Fin 64 := 30
def srcDisabledSender : Fin 64 := 31
def srcSealFailed : Fin 64 := 32
def srcSealMissing : Fin 64 := 33
def srcStaleFreshness : Fin 64 := 34
def srcRecordCheck : Fin 64 := 35
def srcCounterEnd : Fin 64 := 36
def srcTapRefused : Fin 64 := 37
def srcPortMismatch : Fin 64 := 38
def srcUnsealedEnquiry : Fin 64 := 39
def srcStageExpired : Fin 64 := 40
def srcReleaseUnearmarked : Fin 64 := 41
def srcAllOrNoneRefused : Fin 64 := 42
def srcReceiptBacklog : Fin 64 := 43
def srcLanesFull : Fin 64 := 44
def srcStagedLimit : Fin 64 := 45
def srcCleaningDone : Fin 64 := 46
def srcSettling : Fin 64 := 47
def srcStale : Fin 64 := 48
def srcAlarm : Fin 64 := 49
def srcFresh : Fin 64 := 50
def srcIntervalChanged : Fin 64 := 51
def srcRenderDeferred : Fin 64 := 52
def srcRenderWaiting : Fin 64 := 53
def srcStampFallback : Fin 64 := 54
def srcFlagChange : Fin 64 := 55
def srcUncorrectable : Fin 64 := 56
def srcPageRemapped : Fin 64 := 57
def srcSparesLow : Fin 64 := 58
def srcRegionDegraded : Fin 64 := 59
def srcThermistor : Fin 64 := 60
def srcBandClamped : Fin 64 := 61
def srcLedgerSaturated : Fin 64 := 62
def srcDieHot : Fin 64 := 63

/-! ## Events -/

/-- An event of one source (R527): the counter holds at 255; the pending bit is lost in the three cycles of R549
(R550); postmark and DETAIL are those of the latest event (R526). -/
def Source.event (x : Source) (lost : Bool) (uptime : Nat) (boot : BitVec 32) (watch : Bool) (detail : Nat) : Source :=
  { x with counter := if x.counter < 255 then x.counter + 1 else 255
           pending := if lost then x.pending else true
           uptime := uptime, boot := boot, watch := watch, detail := BitVec.ofNat 32 detail }

/-- An event at the desk. -/
def Desk.raise (d : Desk) (src : Fin 64) (uptime : Nat) (boot : BitVec 32) (watch : Bool) (detail : Nat) : Desk :=
  { d with sources := d.sources.set src ((d.sources[src]).event (0 < d.window) uptime boot watch detail)
           fired := d.fired ||| BitVec.ofNat 64 (2 ^ src.val) }

/-- This boot has taken its boot serial: uptime runs, and the straps say whether the node is in fuse mode (R580, R611). -/
def State.bootTaken (s : State) : Bool := s.clock.running && s.start.strapped

/-- The boot serial of a postmark: until the boot has taken one, the one it is about to take, since both copies are
written before the first postmark is taken (R580). In fuse mode the serial stays (R611). -/
def State.bootNow (s : State) : BitVec 32 :=
  if s.mode = .coldStart ∧ s.bootTaken = false ∧ s.setup.fuseen = false then s.store.nextBoot else s.boot

/-- An event of a source at this moment, with its DETAIL (R527). -/
def State.notice (s : State) (src : Fin 64) (detail : Nat) : State :=
  { s with desk := s.desk.raise src s.clock.uptime s.bootNow s.clock.watchCounted detail }

/-- An event that happens under a condition. -/
def State.noticeIf (s : State) (c : Bool) (src : Fin 64) (detail : Nat) : State :=
  if c then s.notice src detail else s

/-- Events of one source, one after another. -/
def State.notices (s : State) (src : Fin 64) (details : List Nat) : State :=
  details.foldl (fun s d => s.notice src d) s

/-- Code of an inlet (Table 13.1, source 23). -/
def inletCode : Inlet → Nat
  | .channel .a => 0
  | .channel .b => 1
  | .courier .a => 2
  | .courier .b => 3

/-- Code of a channel in DETAIL bit [8]. -/
def chanBit : Chan → Nat
  | .a => 0
  | .b => 256

/-- The rule of R535: an eligible subscriber of a source. -/
def State.eligible (s : State) (src : Fin 64) (t : Tenant) : Bool :=
  (s.fuses.tenants[t]).enable && (s.desk.subs[t]).word.getLsbD src.val
    && ((s.desks.standing[t]).fault = .healthy || (s.desks.standing[t]).fault = .cautioned)

/-- R528: the source is due. -/
def Source.due (x : Source) : Bool := x.pending && !x.inHand && x.counter ≠ 0

/-- R540: a source in hand whose recipient is no eligible subscriber any more. Until a cold start has read the fuses nobody
can tell, and what DOZE has kept stands (R559). -/
def State.dropHand (s : State) : State :=
  { s with desk := { s.desk with
      sources := Vector.ofFn fun i =>
        let x := s.desk.sources[i]
        if s.start.fused && x.inHand && !(s.eligible i x.last) then { x with inHand := false } else x } }

/-! ## Channels, ports, tenants -/

/-- Closing time, the closing sequence of RESET#, or the fast discharge runs (R461, R467, R600). -/
def State.shutting (s : State) : Bool := s.closing || s.resetClosing || s.discharging

/-- A channel of the node. -/
def State.chan (s : State) (c : Chan) : Channel := match c with | .a => s.chanA | .b => s.chanB

/-- The node with one channel replaced. -/
def State.setChan (s : State) (c : Chan) (x : Channel) : State :=
  match c with
  | .a => { s with chanA := x }
  | .b => { s with chanB := x }

/-- A courier port of the node. -/
def State.port (s : State) (p : Port) : Courier := match p with | .a => s.portA | .b => s.portB

/-- The node with one port replaced. -/
def State.setPort (s : State) (p : Port) (x : Courier) : State :=
  match p with
  | .a => { s with portA := x }
  | .b => { s with portB := x }

/-- The other channel. -/
def Chan.other : Chan → Chan
  | .a => .b
  | .b => .a

/-- A 16-bit saturating count, one further. -/
def bump16 (n : Nat) : Nat := if n < 65535 then n + 1 else 65535

/-- The standing of a tenant replaced. -/
def State.setStanding (s : State) (t : Tenant) (x : Standing) : State :=
  { s with desks := { s.desks with standing := s.desks.standing.set t x } }

/-- The enabled tenant bound to a courier port; the lower one when two are fused to it (R88; log 13). -/
def State.bound (s : State) (p : Port) : Option Tenant :=
  (List.finRange 32).find? fun t => (s.fuses.tenants[t]).enable && (s.fuses.tenants[t]).port = some p

/-- One dead letter more (R253), with its event. -/
def State.deadLetter (s : State) (i : Inlet) : State :=
  { s with desks := { s.desks with dead := bump16 s.desks.dead } }.notice srcDeadLetter (inletCode i)

/-- The dockets a tenant holds (R260). -/
def State.dockets (s : State) (t : Tenant) : Nat :=
  (s.desks.jobs.filter fun j => match j.letter with
    | some l => l.tenant = t
    | none => false).length

/-- Ordinary letters among them (R261). -/
def State.ordinary (s : State) (t : Tenant) : Nat :=
  (s.desks.jobs.filter fun j => match j.letter with
    | some l => l.tenant = t && !((l.kind.map Kind.express).getD false)
    | none => false).length

/-- Shelf granules of the node, and the most one tenant may claim (R268). -/
def shelfGranules : Nat := 131072
def tenantGranules : Nat := 98305

/-- The claims of a tenant on the shelf: contexts, the courier port bound to it, and letters with dockets (R267, R268). -/
def State.claims (s : State) (t : Tenant) : Nat :=
  let ctx := fun (c : Channel) => (c.ctxs.filter (fun x => x.key.tenant = t)).foldl (fun n x => n + x.claim) 0
  let port := fun (p : Port) => match (s.port p).rx with
    | .lengthKnown _ n _ => if s.bound p = some t then n else 0
    | _ => 0
  let jobs := s.desks.jobs.foldl (fun n j => match j.letter with
    | some l => if l.tenant = t then n + j.claim else n
    | none => n) 0
  ctx s.chanA + ctx s.chanB + port .a + port .b + jobs

/-- Every claim on the shelf, the drawn images of renders included (R490). -/
def State.allClaims (s : State) : Nat :=
  (List.finRange 32).foldl (fun n t => n + s.claims t) 0
    + s.desks.jobs.foldl (fun n j => match j.letter with | none => n + j.claim | some _ => n) 0

end Sys2Proof.Machine
end

