-- ==== Sys2Proof/Machine/Outbound.lean ====
section
/-! DEFINITION. Outbound letters: postmarks, building and sealing (R114, R115, R211, R227), the outbound queue with its
discards (R266, R683), and loading into transmit buffers and courier slots (R150, R203, R212, R216, R690). -/
namespace Sys2Proof.Machine

/-- A postmark taken now (R247, Table 6.18). -/
def State.postmark (s : State) : List Byte :=
  leBytes s.clock.uptime 6 ++ leBytes s.boot.toNat 4 ++ leBytes (if s.clock.watchCounted then 1 else 0) 1

/-- A RECEIPT body (Table 6.18). -/
def State.receiptBody (s : State) (status : Byte) (detail : Nat) (kind : BitVec 5) : List Byte :=
  s.postmark ++ [status] ++ leBytes (kind.toNat + 256 * (detail % 2 ^ 24)) 4

/-- What RMODE sends (Table 6.14): a receipt with this final status. -/
def sendsFinal (rmode : Nat) (status : Byte) : Bool :=
  match rmode with
  | 0 => true
  | 1 => status ≠ stDelivered
  | 2 => true
  | _ => false

/-- RMODE PROGRESS (Table 6.14). -/
def sendsProgress (rmode : Nat) : Bool := rmode = 2

/-! ## Where an outbound letter goes -/

/-- The channels named for a letter that answers this inlet (R137, R141; single mode has one). -/
def State.onChannel (s : State) (i : Inlet) (c : Chan) : Bool :=
  match i with
  | .channel d => if s.busMode = 2 then true else if s.busMode = 3 then c = d else s.inUse c
  | .courier _ => false

/-- Neither channel transmits for the rest of the boot (R266). -/
def State.silentForBoot (s : State) : Bool := s.listenOnly || s.duplicate

/-- The tenant an answer names: on a courier port its bound tenant (R199), else the tenant of the letter. -/
def State.answerTenant (s : State) (i : Inlet) (t : Tenant) : Tenant :=
  match i with
  | .channel _ => t
  | .courier p => (s.bound p).getD t

/-- R114: a letter to this tenant is sealed. -/
def State.mustSeal (s : State) (t : Tenant) : Bool := s.fuses.evaluated || (s.fuses.tenants[t]).sealReq

/-- The key of a tenant's slot, when it can be used (R107, R683). -/
def State.tenantKey (s : State) (t : Tenant) : Option (List Byte) := s.fuses.keys[(s.fuses.tenants[t]).keySlot]

/-- Largest value of a 48-bit counter. -/
def counterMax : Nat := 2 ^ 48 - 1

/-- R683: a letter to this tenant that must be sealed can be. -/
def State.canSeal (s : State) (t : Tenant) : Bool :=
  !(s.mustSeal t)
    || ((s.tenantKey t).isSome && (match s.store.counter t true with
        | some v => v < counterMax
        | none => false))

/-- The octets of an outbound letter without CHECK: header, body, and the seal with the outbound counter advanced
(R114, R115, R227); COUNTER_END when it reaches its end (Table 13.1). -/
def State.sealOut (s : State) (t : Tenant) (kind : BitVec 5) (stream : BitVec 4) (number : Nat) (body : List Byte) :
    State × List Byte :=
  let head := fun (f : Nat) => leBytes 1 1 ++ leBytes f 1 ++ leBytes number 2 ++ leBytes body.length 4 ++ body
  match s.mustSeal t, s.tenantKey t with
  | true, some key =>
    let v := ((s.store.counter t true).getD 0) + 1
    let o := head 1
    let tag := sealTag key false (BitVec.ofNat 8 s.node) t.val kind.toNat stream.toNat o v
    let s := { s with store := s.store.setCounter t true v }
    (s.noticeIf (v = counterMax) srcCounterEnd (t.val + 256), o ++ leBytes v 6 ++ tag)
  | _, _ => (s, head 0)

/-! ## Fragments (R213 to R216) -/

/-- Data length that holds `n` bytes under CAN FD. -/
def fdLength (n : Nat) : Nat :=
  if n ≤ 8 then n
  else if n ≤ 12 then 12
  else if n ≤ 16 then 16
  else if n ≤ 20 then 20
  else if n ≤ 24 then 24
  else if n ≤ 32 then 32
  else if n ≤ 48 then 48
  else 64

/-- The data fields of a letter's bus frames from octet `first`; `seq` counts the fragments. -/
def fragmentList (fd : Bool) : Nat → Nat → Bool → List Byte → List (List Byte)
  | 0, _, _, _ => []
  | fuel + 1, seq, isFirst, o =>
    let room := if fd then 63 else 7
    let part := o.take room
    let rest := o.drop room
    let isLast := rest.isEmpty
    let ctl := (if isFirst then 128 else 0) + (if isLast then 64 else 0) + seq % 64
    let data := BitVec.ofNat 8 ctl :: part
    let data := if fd && isLast then data ++ List.replicate (fdLength data.length - data.length) 0 else data
    if isLast then [data] else data :: fragmentList fd fuel (seq + 1) false rest

/-- The bus frames of a letter: its octets and CHECK, cut under R216. -/
def fragments (fd : Bool) (octets : List Byte) : List (List Byte) :=
  let o := octets ++ leBytes (crc32 octets).toNat 4
  fragmentList fd (o.length + 1) 0 true o

/-! ## Loading a channel (R150, R212, R689, R690) -/

/-- The states in which a channel takes new letters into buffers (R690). -/
def ChanState.loads : ChanState → Bool
  | .matching | .integrating | .errorActive | .errorPassive | .busOff | .offBus | .reset => true
  | .unused | .held | .silent | .dead | .laidUp | .watchListener | .unpowered => false

/-- Buffers of a class (Table 4.6). -/
def TxClass.room : TxClass → Nat
  | .fast => 8
  | .receipt => 24
  | .general => 32

/-- Buffers of a class in use, and those among them that are not a ROLLCALL's. -/
def Channel.used (c : Channel) (cls : TxClass) : Nat := (c.bufs.filter fun b => b.cls = cls).length
def Channel.usedPlain (c : Channel) (cls : TxClass) : Nat :=
  (c.bufs.filter fun b => b.cls = cls && idKind b.ident ≠ kRollcall).length

/-- Buffers that a letter of a class could still fill: letters but the ROLLCALL use no more than 31 general ones (R689).
-/
def Channel.free (c : Channel) (cls : TxClass) (isRollcall : Bool) : Nat :=
  let left := cls.room - c.used cls
  if cls = .general ∧ isRollcall = false then min left (31 - c.usedPlain cls) else left

/-- No buffer holds a fragment of another letter with this identifier (R212; log 48). -/
def Channel.identFree (c : Channel) (letter : Nat) (ident : BitVec 29) : Bool :=
  c.bufs.all fun b => b.ident ≠ ident || b.letter = letter

/-- Letters of the fast class that have fragments in buffers or still to be loaded. -/
def Channel.fastLetters (c : Channel) : Nat :=
  (((c.bufs.filter fun b => b.cls = .fast).map (·.letter)
    ++ (c.loading.filter fun x => x.cls = .fast).map (·.letter)).eraseDups).length

/-- Loads the next fragments of one letter: never more than four buffers at once (R150). -/
def Channel.fillOne (c : Channel) (x : TxLetter) : Nat → Channel × TxLetter
  | 0 => (c, x)
  | fuel + 1 =>
    match x.rest with
    | [] => (c, x)
    | d :: r =>
      let held := (c.bufs.filter fun b => b.letter = x.letter).length
      if held < 4 ∧ 0 < c.free x.cls x.isRollcall ∧ c.identFree x.letter x.ident = true then
        let b : TxBuf := { seq := c.txSeq, letter := x.letter, ident := x.ident, cls := x.cls, data := d,
                           isLast := r.isEmpty }
        Channel.fillOne { c with bufs := c.bufs ++ [b], txSeq := c.txSeq + 1 } { x with rest := r } fuel
      else (c, x)

/-- Loads what the buffers hold of every letter in loading order; one whose identifier an earlier letter still loads waits
for it (R212). -/
def Channel.fillAll (c : Channel) (blocked : List (BitVec 29)) : List TxLetter → Channel
  | [] => { c with loading := [] }
  | x :: xs =>
    let (c1, x1) := if blocked.contains x.ident then (c, x) else c.fillOne x 4
    let c2 := Channel.fillAll c1 (if x1.rest.isEmpty then blocked else x.ident :: blocked) xs
    if x1.rest.isEmpty then c2 else { c2 with loading := x1 :: c2.loading }

/-- Fills freed buffers. -/
def Channel.refill (c : Channel) : Channel := c.fillAll [] c.loading

/-- A channel takes a letter: it has not been dead or laid up since it last could transmit (R690), a buffer of the class
is free, no fragment of another letter with the identifier is in a buffer or still to be loaded (R212), and at most one
other fast-class NOTICE is loaded (R543). -/
def Channel.takes (c : Channel) (ident : BitVec 29) (cls : TxClass) (isRollcall : Bool) : Bool :=
  c.st.loads && !c.shut && 0 < c.free cls isRollcall && !(c.loading.any (·.ident = ident))
    && !(c.bufs.any (·.ident = ident)) && (cls ≠ .fast || c.fastLetters < 2)

/-- Loads a letter: its fragments enter the loading list and what fits enters buffers. -/
def Channel.load (c : Channel) (x : TxLetter) : Channel := { c with loading := c.loading ++ [x] }.refill

/-- The identifier of an outbound letter (R211). -/
def State.outIdent (s : State) (o : OutLetter) : BitVec 29 :=
  mkIdent o.group o.sub 2 (BitVec.ofNat 7 s.node) o.tenant o.kind o.stream

/-- Offers the waiting letters to one channel; a letter that cannot be loaded holds back later ones of its class (R150).
DESIGN CHOICE: they are offered in the order produced, as R203 and R204 have it for the courier slots, and one whose
identifier is in use holds its class back too (R212; log 48). One that is never sent has its moment at
its first load (R246). -/
def pumpChannel (c : Chan) (ident : OutLetter → BitVec 29) (fd : Bool) :
    List OutLetter → List TxClass → Channel → Channel × List OutLetter
  | [], _, x => (x, [])
  | o :: r, blocked, x =>
    let named := match c with
      | .a => o.toA
      | .b => o.toB
    if named then
      if !(blocked.contains o.cls) && x.takes (ident o) o.cls false then
        if o.unsent then
          let (x2, r2) := pumpChannel c ident fd r blocked x
          (x2, { o with toA := false, toB := false } :: r2)
        else
          let x1 := x.load { letter := o.id, ident := ident o, cls := o.cls, rest := fragments fd o.octets,
                             isRollcall := false }
          let (x2, r2) := pumpChannel c ident fd r blocked x1
          (x2, (match c with | .a => { o with toA := false } | .b => { o with toB := false }) :: r2)
      else
        let (x2, r2) := pumpChannel c ident fd r (if o.unsent then blocked else o.cls :: blocked) x
        (x2, o :: r2)
    else
      let (x2, r2) := pumpChannel c ident fd r blocked x
      (x2, o :: r2)

/-- Slots of each class on a courier port (Table 5.3). -/
def portSlots : Nat := 16

/-- The slots of a port that a class uses. -/
def Courier.slots (p : Courier) (cls : TxClass) : List OutLetter :=
  match cls with
  | .receipt => p.receipts
  | .general | .fast => p.generals

/-- A letter enters a slot of its class. -/
def Courier.push (p : Courier) (o : OutLetter) : Courier :=
  match o.cls with
  | .receipt => { p with receipts := p.receipts ++ [o] }
  | .general | .fast => { p with generals := p.generals ++ [o] }

/-- Offers the waiting letters to one port (R203, R204). -/
def pumpPort (p : Port) : List OutLetter → Courier → Courier × List OutLetter
  | [], x => (x, [])
  | o :: r, x =>
    if o.port = some p ∧ (x.slots o.cls).length < portSlots then
      let (x2, r2) := pumpPort p r (if o.unsent then x else x.push o)
      (x2, { o with port := none } :: r2)
    else
      let (x2, r2) := pumpPort p r x
      (x2, o :: r2)

/-- Where a letter still has to be loaded. -/
def OutLetter.left (o : OutLetter) : Nat :=
  (if o.toA then 1 else 0) + (if o.toB then 1 else 0) + (if o.port.isSome then 1 else 0)

/-- A job leaves: its docket and its place in the order are free (R265, Table 0.3). -/
def Desks.freeJob (d : Desks) (j : Nat) : Desks :=
  { d with jobs := d.jobs.filter (·.id ≠ j), order := d.order.filter (· ≠ j), cycle := d.cycle.filter (· ≠ j) }

/-- A refusal-list entry of a tenant number is free (R265). -/
def Desks.freeRefusal (d : Desks) (t : Tenant) : Desks :=
  { d with standing := d.standing.set t { d.standing[t] with refusals := (d.standing[t]).refusals - 1 } }

/-- The docket of a letter that has its outcome is free; its place in the order was given up with the outcome (R265,
R281). -/
def Desks.freeDocket (d : Desks) (j : Nat) : Desks :=
  { d with jobs := d.jobs.filter fun x => x.id ≠ j || x.outcome.isNone }

/-- What a letter's load frees: the docket or refusal-list entry it holds. -/
def Desks.freed (d : Desks) (o : OutLetter) : Desks :=
  let d := match o.docket with
    | some j => d.freeDocket j
    | none => d
  match o.refusal with
  | some t => d.freeRefusal t
  | none => d

/-- After a pump, `before` and `after` list the same letters: the first load of each frees what it holds (R690), and a
letter with nowhere left to go leaves the queue. -/
def Desks.settle (d : Desks) : List OutLetter → List OutLetter → Desks
  | b :: bs, a :: as =>
    let d := if a.left < b.left then d.freed b else d
    let a := if a.left < b.left then { a with docket := none, refusal := none } else a
    let d := Desks.settle d bs as
    if a.left = 0 then d else { d with out := a :: d.out }
  | _, _ => { d with out := [] }

/-- Loads waiting letters into channels and ports (R137, R203, R204, R690). -/
def State.pump (s : State) : State :=
  let id := s.outIdent
  let fd := !s.classical
  let (xa, o1) := pumpChannel .a id fd s.desks.out [] s.chanA
  let (xb, o2) := pumpChannel .b id fd o1 [] s.chanB
  let (pa, o3) := pumpPort .a o2 s.portA
  let (pb, o4) := pumpPort .b o3 s.portB
  { s with chanA := xa, chanB := xb, portA := pa, portB := pb, desks := s.desks.settle s.desks.out o4 }

/-! ## Letters that come due -/

/-- Class of an outbound kind (Tables 4.6, 5.3). -/
def outClass (kind : BitVec 5) : TxClass := if kind = kReceipt ∨ kind = kAnswer then .receipt else .general

/-- A letter that answers one which arrived on an inlet with this identifier: without octets, and holding nothing. -/
def State.outBase (s : State) (i : Inlet) (ident : BitVec 29) (kind : BitVec 5) : OutLetter :=
  { id := s.desks.nextOut, kind := kind, group := if idGroup ident = 0 then 1 else idGroup ident,
    sub := idSub ident, tenant := s.answerTenant i (idTenant ident), stream := idStream ident, cls := outClass kind,
    octets := [], toA := s.onChannel i .a, toB := s.onChannel i .b,
    port := match i with | .courier p => some p | .channel _ => none,
    docket := none, refusal := none, unsent := false }

/-- A letter due there is discarded: no channel will carry it, its seal cannot be made (R266, R683), or the logic has
stopped for the fast discharge (R467). -/
def State.neverSent (s : State) (i : Inlet) (sealable : Bool) : Bool :=
  s.discharging || (match i with | .channel _ => s.silentForBoot | .courier _ => false) || !sealable

/-- A letter joins the outbound queue. -/
def Desks.queued (d : Desks) (o : OutLetter) : Desks := { d with out := d.out ++ [o], nextOut := d.nextOut + 1 }

/-- A RECEIPT, ANSWER, STATUS or WEIGHT letter comes due for a letter that arrived on an inlet with this identifier and
number. `plain`: never sealed (the short STATUS of R120). It is discarded under R266 or R683, and then frees at once what
it holds. -/
def State.send (s : State) (i : Inlet) (ident : BitVec 29) (number : Nat) (kind : BitVec 5) (body : List Byte)
    (plain : Bool) (docket : Option Nat) (refusal : Option Tenant) : State :=
  let base := { s.outBase i ident kind with docket := docket, refusal := refusal }
  if s.neverSent i (plain || s.canSeal base.tenant) then { s with desks := s.desks.freed base }
  else
    let (s, o) := if plain then (s, leBytes 1 1 ++ leBytes 0 1 ++ leBytes number 2 ++ leBytes body.length 4 ++ body)
                  else s.sealOut base.tenant kind (idStream ident) number body
    { s with desks := s.desks.queued { base with octets := o } }

/-- RMODE selects no final receipt: the docket is freed when that receipt would have been loaded, or at once where it
would have been discarded (R246, R265). -/
def State.sendNothing (s : State) (l : Letter) (docket : Nat) : State :=
  let base := { s.outBase l.inlet l.ident kReceipt with docket := some docket, unsent := true }
  if s.neverSent l.inlet (s.canSeal base.tenant) then { s with desks := s.desks.freed base }
  else { s with desks := s.desks.queued base }

/-- A RECEIPT for a letter. -/
def State.receipt (s : State) (l : Letter) (status : Byte) (detail : Nat) (docket : Option Nat)
    (refusal : Option Tenant) : State :=
  s.send l.inlet l.ident l.number kReceipt (s.receiptBody status detail (idKind l.ident)) false docket refusal

/-- Letters due on the bus of a node that has fallen silent are discarded, with what they hold (R173, R266). -/
def Desks.discardBus (d : Desks) : List OutLetter → Desks
  | [] => { d with out := [] }
  | o :: r =>
    if o.toA || o.toB then Desks.discardBus (d.freed o) r
    else
      let d := Desks.discardBus d r
      { d with out := o :: d.out }

end Sys2Proof.Machine
end

