-- ==== Sys2Proof/Machine/Lanes.lean ====
section
/-! DEFINITION. Rectangles, the overlap test and split-and-start (R359 to R363, R692), covered rectangles, lanes (R354 to
R357), and writing board pixels. -/
namespace Sys2Proof.Machine

/-! ## Rectangles -/

def Rect.contains (r : Rect) (x y : Nat) : Bool := r.x0 ≤ x && x ≤ r.x1 && r.y0 ≤ y && y ≤ r.y1
def Rect.width (r : Rect) : Nat := r.x1 + 1 - r.x0
def Rect.height (r : Rect) : Nat := r.y1 + 1 - r.y0
def Rect.area (r : Rect) : Nat := r.width * r.height

/-- `a` lies inside `b`. -/
def Rect.inside (a b : Rect) : Bool := b.x0 ≤ a.x0 && a.x1 ≤ b.x1 && b.y0 ≤ a.y0 && a.y1 ≤ b.y1

/-- The two share a pixel. -/
def Rect.meets (a b : Rect) : Bool := a.x0 ≤ b.x1 && b.x0 ≤ a.x1 && a.y0 ≤ b.y1 && b.y0 ≤ a.y1

/-- The common part. -/
def Rect.clip (a b : Rect) : Option Rect :=
  if a.meets b then some ⟨max a.x0 b.x0, max a.y0 b.y0, min a.x1 b.x1, min a.y1 b.y1⟩ else none

/-- R359: the two cover a common cell column on a common row. -/
def Rect.overlaps (a b : Rect) : Bool :=
  a.x0 / 8 ≤ b.x1 / 8 && b.x0 / 8 ≤ a.x1 / 8 && a.y0 ≤ b.y1 && b.y0 ≤ a.y1

/-- The pixels of `a` outside `b`, as rectangles (R274). -/
def Rect.minus (a b : Rect) : List Rect :=
  match a.clip b with
  | none => [a]
  | some c =>
    (if a.y0 < c.y0 then [⟨a.x0, a.y0, a.x1, c.y0 - 1⟩] else [])
      ++ (if a.x0 < c.x0 then [⟨a.x0, c.y0, c.x0 - 1, c.y1⟩] else [])
      ++ (if c.x1 < a.x1 then [⟨c.x1 + 1, c.y0, a.x1, c.y1⟩] else [])
      ++ (if c.y1 < a.y1 then [⟨a.x0, c.y1 + 1, a.x1, a.y1⟩] else [])

/-- The pixels of a rectangle outside several others. -/
def Rect.minusAll (a : Rect) : List Rect → List Rect
  | [] => [a]
  | b :: bs => (a.minus b).flatMap fun r => r.minusAll bs

/-- Its pixels row by row, left to right. -/
def Rect.pixels (r : Rect) : List (Nat × Nat) :=
  (List.range r.height).flatMap fun j => (List.range r.width).map fun i => (r.x0 + i, r.y0 + j)

/-- The rows of a rectangle. -/
def Rect.rows (r : Rect) : List Nat := (List.range r.height).map (r.y0 + ·)

/-- Insertion into a list that rises by a key. -/
def insertBy {α : Type} (le : α → α → Bool) (a : α) : List α → List α
  | [] => [a]
  | b :: r => if le a b then a :: b :: r else b :: insertBy le a r

/-- A list put in order; equal entries keep theirs. -/
def sortBy {α : Type} (le : α → α → Bool) : List α → List α
  | [] => []
  | a :: r => insertBy le a (sortBy le r)

/-- Raster order of top-left pixels (R357). -/
def Rect.raster (a b : Rect) : Bool := a.y0 < b.y0 || (a.y0 = b.y0 && a.x0 ≤ b.x0)

/-! ## Splitting (R361) -/

/-- A covered rectangle and what covers it. -/
structure Cover where
  id : CoverId
  rect : Rect
deriving DecidableEq, Repr

/-- Intervals of [lo, hi] cut at the given places (each starts an interval). -/
def intervals (lo hi : Nat) (cuts : List Nat) : List (Nat × Nat) :=
  let at' := (sortBy (fun a b => a ≤ b) (cuts.filter fun c => lo < c && c ≤ hi)).eraseDups
  let rec go (start : Nat) : List Nat → List (Nat × Nat)
    | [] => [(start, hi)]
    | c :: cs => (start, c - 1) :: go c cs
  go lo at'

/-- A block of a band: cell columns, rows and the covers over it. -/
structure Block where
  g0 : Nat
  g1 : Nat
  y0 : Nat
  y1 : Nat
  ids : List CoverId
deriving DecidableEq, Repr

/-- The pixels of cell columns `g0` to `g1` on rows `y0` to `y1`. -/
def Block.cells (b : Block) : Rect := ⟨8 * b.g0, b.y0, 8 * b.g1 + 7, b.y1⟩

/-- Step 4 of R361: neighbours of one band under the same covers are joined. -/
def joinAcross : List Block → List Block
  | [] => []
  | b :: r =>
    match joinAcross r with
    | c :: cs => if b.ids = c.ids then { b with g1 := c.g1 } :: cs else b :: c :: cs
    | [] => [b]

/-- Step 5 of R361: the blocks of a band are joined to blocks that end just above it. -/
def joinDown (open' : List Block) (band : List Block) : List Block :=
  let below := fun (a b : Block) => a.y1 + 1 = b.y0 && a.g0 = b.g0 && a.g1 = b.g1 && a.ids = b.ids
  let grown := open'.map fun a => match band.find? (below a) with
    | some b => { a with y1 := b.y1 }
    | none => a
  grown ++ band.filter fun b => !(open'.any fun a => below a b)

/-- Steps 1 to 4 for one band. -/
def bandBlocks (p : Rect) (covers : List Cover) (y0 y1 : Nat) : List Block :=
  let band : Rect := ⟨p.x0, y0, p.x1, y1⟩
  let cs := covers.filter fun c => c.rect.overlaps band
  let cuts := cs.flatMap fun c => [c.rect.x0 / 8, c.rect.x1 / 8 + 1]
  joinAcross ((intervals (p.x0 / 8) (p.x1 / 8) cuts).map fun (a, b) =>
    let block : Block := ⟨a, b, y0, y1, []⟩
    { block with ids := ((cs.filter fun c => c.rect.overlaps block.cells).map (·.id)).eraseDups })

/-- R360, R361: the parts of a rectangle, in raster order, each with what covers it. -/
def splitParts (p : Rect) (covers : List Cover) : List (Rect × List CoverId) :=
  let cs := covers.filter fun c => c.rect.overlaps p
  if cs.isEmpty then [(p, [])]
  else
    let cuts := cs.flatMap fun c => [c.rect.y0, c.rect.y1 + 1]
    let blocks := ((intervals p.y0 p.y1 cuts).map fun (a, b) => bandBlocks p cs a b).foldl joinDown []
    sortBy (fun a b => a.1.raster b.1) (blocks.filterMap fun b => (b.cells.clip p).map fun r => (r, b.ids))

/-! ## Jobs and their order -/

/-- A job by its number. -/
def State.job? (s : State) (j : Nat) : Option Job := s.desks.jobs.find? (·.id = j)

/-- A job changed in place. -/
def Desks.setJob (d : Desks) (j : Nat) (f : Job → Job) : Desks :=
  { d with jobs := d.jobs.map fun x => if x.id = j then f x else x }

/-- A job changed in place. -/
def State.setJob (s : State) (j : Nat) (f : Job → Job) : State := { s with desks := s.desks.setJob j f }

/-- Order position: `none` once the job has left the order (R281). -/
def Desks.position (d : Desks) (j : Nat) : Option Nat := d.order.idxOf? j

/-- Job `a` has an earlier order position than job `b`. -/
def Desks.before (d : Desks) (a b : Nat) : Bool :=
  match d.position a, d.position b with
  | some i, some k => i < k
  | _, _ => false

/-- The tenant of a job's letter. -/
def Job.tenant (j : Job) : Option Tenant := j.letter.map Letter.tenant

/-- The kind of a job's letter. -/
def Job.letterKind (j : Job) : Option Kind := j.letter.bind Letter.kind

/-- A POST's job. -/
def Job.isPost (j : Job) : Bool := j.letterKind = some .post

/-- A render's job. -/
def Job.isRender (j : Job) : Bool := match j.kind with
  | .render _ => true
  | .letter | .settling _ _ | .cleaning _ => false

/-- A POST that has passed its walk and not come to its outcome. -/
def Job.walked (j : Job) : Bool :=
  j.isPost && j.rect.isSome && j.outcome.isNone
    && (j.st = .orderWait || j.st = .held || j.st = .deferred || j.st = .committing || j.st = .staged || j.st = .running)

/-- The rectangles whose pixels a job has still to copy: all of them before it has been divided. -/
def Job.uncopied (j : Job) : List Rect :=
  if j.parts.isEmpty then
    match j.rect with
    | some r => if j.started then [] else r.minusAll j.spared
    | none => []
  else (j.parts.filter fun p => p.st = .waiting || p.st = .copying).map (·.rect)

/-- Jobs whose pixels wait to be copied: walked POSTs, and renders from their snapshot on. -/
def Job.copies (j : Job) : Bool := j.walked || (j.isRender && j.snap.isSome)

/-! ## Covered rectangles (R30, R277, R358, R474, R692) -/

/-- Rounds from copy to write-back. -/
def State.roundCovers (s : State) : List Cover :=
  (s.board.lanes.toList.filter (·.st ≠ .free)).map (fun l => ⟨.round l.round, l.rect⟩)
    ++ s.desks.jobs.flatMap fun j => (j.parts.filter (·.st = .copied)).map fun p => ⟨.round p.round, p.rect⟩

/-- Torn rectangles. -/
def State.tornCovers (s : State) : List Cover := s.torn.map fun t => ⟨.torn t.id, t.rect⟩

/-! ## Lanes -/

/-- The lowest-numbered FREE lane (R355). -/
def Board.freeLane (b : Board) : Option (Fin 64) := (List.finRange 64).find? fun l => (b.lanes[l]).st = .free

/-- FREE lanes. -/
def Board.freeCount (b : Board) : Nat := (b.lanes.toList.filter (·.st = .free)).length

/-- Every lane is FREE. -/
def Board.allFree (b : Board) : Bool := b.lanes.toList.all (·.st = .free)

/-- STAGED lanes. -/
def Board.stagedCount (b : Board) : Nat := (b.lanes.toList.filter (·.st = .staged)).length

/-- A lane changed. -/
def Board.setLane (b : Board) (l : Fin 64) (f : Lane → Lane) : Board := { b with lanes := b.lanes.set l (f b.lanes[l]) }

/-- The lanes of a job. -/
def Board.lanesOf (b : Board) (j : Nat) : List (Fin 64) :=
  (List.finRange 64).filter fun l => (b.lanes[l]).st ≠ .free && (b.lanes[l]).job = j

/-- Lanes freed; the 500 ms of R345 begin when the last one frees, be the rails still coming up. -/
def Board.freeLanes (b : Board) (ls : List (Fin 64)) (now : Nat) : Board :=
  let b := ls.foldl (fun b l => b.setLane l fun _ => Lane.empty) b
  { b with freeSince := if b.allFree then (if b.freeSince.isSome then b.freeSince else some now) else none }

/-- A round that runs: from its first panel frame until its write-back (R338). -/
def LaneState.started : LaneState → Bool
  | .running | .tail | .paused | .closing => true
  | .free | .staged | .armed => false

/-- Some pixel of the board lies under a running round. -/
def State.inMotion (s : State) (x y : Nat) : Bool :=
  s.board.lanes.toList.any fun l => l.st.started && l.rect.contains x y

/-! ## Writing pixels -/

/-- The octets of one row of a plane between two columns, with new nibbles where `v` gives them. -/
def Store.planeRow (s : Store) (base y x0 x1 : Nat) (v : Nat → Option (BitVec 4)) : Nat × List Byte :=
  let o0 := x0 / 2
  let o1 := x1 / 2
  (base + y * 2048 + o0,
   (List.range (o1 + 1 - o0)).map fun i =>
     let old := s.read (base + y * 2048 + o0 + i)
     let nib := fun (x : Nat) (was : BitVec 4) => if x0 ≤ x ∧ x ≤ x1 then (v x).getD was else was
     (nib (2 * (o0 + i) + 1) ((old >>> 4).setWidth 4)) ++ (nib (2 * (o0 + i)) (old.setWidth 4)))

/-- The write of a rectangle of a plane: frozen pixels keep their values (Table 15.4). -/
def Store.planeWrites (s : Store) (base : Nat) (r : Rect) (v : Nat → Nat → BitVec 4) : List (Nat × List Byte) :=
  r.rows.map fun y => s.planeRow base y r.x0 r.x1 fun x => if s.frozen x y then none else some (v x y)

/-- The pixels of a rectangle of the target plane set back to their shown values (R295, R472), rectangles in turn. -/
def Store.restoreTarget (s : Store) (rs : List Rect) : Store :=
  rs.foldl (fun s r => s.put (s.planeWrites targetBase r (fun x y => s.pixel shownBase x y))) s

end Sys2Proof.Machine
end

