-- ==== Sys2Proof/Machine/Waves.lean ====
section
/-! DEFINITION. The waveform set in force (R385, R387, R394), its codes and net drives (R411, R414), the closing floor's
longest round, and the temperature of a pixel (R396 to R404). -/
namespace Sys2Proof.Machine

/-! ## ROM sets (Table 10.2)

The spec gives the lengths, bands and net drive of the tails of a ROM set, not its codes: they are free values held to
the rules that bind every valid set (Table 10.4; log 7). -/

/-- Codes of the frames left before the closing 0b00: a proposed code stands when it is none of the forbidden and the
target can still be reached, else the next code steps towards the target. `left` frames remain before the last. -/
def romSteer (raw : Nat → BitVec 2) (target : Int) : Nat → Nat → Int → List (BitVec 2)
  | 0, _, _ => [0]
  | left + 1, f, acc =>
    let c := raw f
    let ok := c ≠ 3 && (target - (acc + codeDrive c)).natAbs ≤ left
    let c := if ok then c else if acc < target then 1 else if target < acc then 2 else 0
    c :: romSteer raw target left (f + 1) (acc + codeDrive c)

/-- Codes of a mode 0 to 2 entry: no 0b11, the last 0b00. -/
def romFree (raw : Nat → BitVec 2) (len : Nat) : List (BitVec 2) :=
  (List.range len).map fun i => if i + 1 = len || raw (i + 1) = 3 then 0 else raw (i + 1)

/-- Frame count of a ROM mode. -/
def romLen (m : Nat) : Option Nat :=
  match m with
  | 0 => some 40
  | 1 => some 20
  | 2 => some 8
  | 15 => some 60
  | _ => none

/-- TAILLEN of the ROM sets. -/
def romTailLen : Nat := 24

/-- The drive entry of a ROM set. DESIGN CHOICE: the nets of Table 10.5's worked example (+9 and −9 between 3 and 0xC in mode 0,
band 10) bind the codes no further (log 7). -/
def romEntry (cls m b o n : Nat) : List (BitVec 2) :=
  match romLen m with
  | none => []
  | some len =>
    if m = 15 then romSteer (Config.romDrive cls 15 b 0 n) 0 (len - 1) 1 0
    else romFree (Config.romDrive cls m b o n) len

/-- A tail of a ROM set (`true`: P-tail). DESIGN CHOICE: the −8 that the example of Table 10.5 has after 12 frames of an N-tail binds
the codes no further (log 7). -/
def romTailEntry (cls b v : Nat) (pos : Bool) : List (BitVec 2) :=
  romSteer (Config.romTail cls b v pos) (if pos then 16 else -16) (romTailLen - 1) 1 0

/-! ## A set, ROM or store -/

/-- The parcel in the waveform store. -/
def Store.parcel (s : Store) : List Byte := s.readList waveBase (leNat (s.readList (waveBase + 8) 4) 0 4)

/-- Frame count of a mode, when the set has it. -/
def setLen (w : SetInForce) (p : List Byte) (m : Nat) : Option Nat :=
  match w with
  | .none => none
  | .rom _ => romLen m
  | .store => if (wsModes p).testBit m then some (wsModeLen p m) else none

/-- TAILLEN of a set. -/
def setTail (w : SetInForce) (p : List Byte) : Nat :=
  match w with
  | .none => 0
  | .rom _ => romTailLen
  | .store => wsTail p

/-- Panel-frame period in µs. -/
def setFrame (w : SetInForce) (p : List Byte) : Nat :=
  match w with
  | .none => 0
  | .rom _ => 20000
  | .store => wsFrame p

/-- SDCK rate in MHz (R343, Table 9.2). -/
def setSdck (w : SetInForce) (p : List Byte) : Nat :=
  match w with
  | .none => 0
  | .rom c => if c.val ≤ 5 then 75 else 150
  | .store => if wsSdck p = 0 then 75 else 150

/-- Number of bands, and the lower bound of a band in 1/16 °C. -/
def setBands (w : SetInForce) (p : List Byte) : Nat :=
  match w with
  | .none => 0
  | .rom _ => 16
  | .store => wsBands p
def setBandLo (w : SetInForce) (p : List Byte) (b : Nat) : Int :=
  match w with
  | .none => 0
  | .rom _ => 16 * (-20 + 5 * (b : Int))
  | .store => wsBandLo p b

/-- Code of frame `f` of a drive entry. -/
def setCode (w : SetInForce) (p : List Byte) (m b o n f : Nat) : BitVec 2 :=
  match w with
  | .none => 0
  | .rom c => (romEntry c.val m b o n).getD (f - 1) 0
  | .store => wsCode p (wsEntry p m b o n) f

/-- Code of frame `f` of a tail. -/
def setTailCode (w : SetInForce) (p : List Byte) (b v : Nat) (pos : Bool) (f : Nat) : BitVec 2 :=
  match w with
  | .none => 0
  | .rom c => (romTailEntry c.val b v pos).getD (f - 1) 0
  | .store => wsCode p (wsTailEntry p b v pos) f

/-- The word of the waveform store that holds a code; none for a ROM set. -/
def setCodeWord (w : SetInForce) (p : List Byte) (m b o n : Nat) (tail : Option Bool) (f : Nat) : Option Nat :=
  match w with
  | .store =>
    let at' := match tail with
      | some pos => wsTailEntry p b n pos
      | none => wsEntry p m b o n
    some ((waveBase + at' + (f - 1) / 4) / 8 * 8)
  | .none | .rom _ => none

/-- The longest round in panel frames: the longest mode plus the tail (R302). -/
def setLongest (w : SetInForce) (p : List Byte) : Nat :=
  (List.range 16).foldl (fun a m => max a ((setLen w p m).getD 0)) 0 + setTail w p

/-- R404: the band of a temperature in 1/16 °C. -/
def setBand (w : SetInForce) (p : List Byte) (t : Int) : Option Nat :=
  (List.range (setBands w p)).find? fun b => setBandLo w p b ≤ t && t < setBandLo w p (b + 1)

/-- The band, or the nearest one (R409). -/
def setBandNear (w : SetInForce) (p : List Byte) (t : Int) : Nat :=
  match setBand w p t with
  | some b => b
  | none => if t < setBandLo w p 0 then 0 else setBands w p - 1

/-! ## The set in force -/

/-- R385, R393, R394 at a cold start or after an installation: the set that comes into force. -/
def State.setChoice (s : State) : SetInForce :=
  let p := s.store.parcel
  if s.setup.known 4 = false ∨ s.pclass = 15 then .none
  else if s.waves.valid ∧ s.waves.deferred = false
      ∧ (s.pclass = 14 ∨ (wsWidth p = classWidth s.pclass ∧ wsHeight p = classHeight s.pclass)) then .store
  else if h : s.pclass < 14 then .rom ⟨s.pclass, h⟩
  else .none

/-- The parcel that the set in force needs. -/
def State.parcel (s : State) : List Byte :=
  match s.waves.inForce with
  | .store => s.store.parcel
  | .none | .rom _ => []

def State.modeLen (s : State) (m : Nat) : Option Nat := setLen s.waves.inForce s.parcel m
def State.tailLen (s : State) : Nat := setTail s.waves.inForce s.parcel

/-- D_max in µs (R302). -/
def State.dmax (s : State) : Nat := setLongest s.waves.inForce s.parcel * setFrame s.waves.inForce s.parcel

/-- The set as the journal names it (R422). -/
def State.setTag (s : State) : SetTag :=
  match s.waves.inForce with
  | .rom c => .rom c.val
  | .store => .store (BitVec.ofNat 16 (wsSetId s.parcel))
  | .none => .rom 0

/-- A set named in the journal. -/
def SetTag.set (t : SetTag) : SetInForce :=
  match t with
  | .rom c => if h : c < 14 then .rom ⟨c, h⟩ else .none
  | .store _ => .store

/-! ## Temperatures -/

/-- Natural logarithm of a positive whole number in 2^-192, by powers of 2 and the series of artanh (log 15). -/
def artanhSeries (z zz : Int) : Nat → Nat → Int
  | 0, _ => 0
  | fuel + 1, k => z / (k : Int) + artanhSeries (z * zz / 2 ^ 192) zz fuel (k + 2)
def lnNat (n : Nat) : Int :=
  let k := n.log2
  let z : Int := (((n : Int) - 2 ^ k) * 2 ^ 192) / ((n : Int) + 2 ^ k)
  -- ln 2 in 2^-192
  4350955369971217654477563090224794165364344896676135745069 * (k : Int)
    + 2 * artanhSeries z (z * z / 2 ^ 192) 72 1

/-- Parts of a °C that a grid point is kept in. The twelfths make every mean of R398 exact, so that nothing but the
logarithm is rounded before R403 (log 15). -/
def gridUnit : Int := 12 * 2 ^ 160

/-- The nearest whole number to a quotient. -/
def nearest (n d : Int) : Int := (2 * n + d) / (2 * d)

/-- Temperature of a thermistor count in grid units (R397); `none` outside −45 to +125 °C (R398). -/
def ntcTemp (b count : Nat) : Option Int :=
  if count = 0 ∨ 4095 ≤ count then none
  else
    let l := lnNat count - lnNat (4095 - count)
    let den : Int := 100 * (b : Int) * 2 ^ 192 + 29815 * l
    if den ≤ 0 then none
    else
      let t := 12 * nearest ((100 * (b : Int) * 29815 * 2 ^ 192 - 27315 * den) * 2 ^ 160) (100 * den)
      if t < -45 * gridUnit ∨ 125 * gridUnit < t then none else some t

/-- The mean of up to four values in grid units, exact where they stand for whole 2^-160 °C. -/
def meanOf (l : List Int) : Option Int := if l.isEmpty then none else some (l.foldl (· + ·) 0 / (l.length : Int))

/-- The grid of a rotation (R398): failed points take the mean of their sound neighbours, or the on-die value. -/
def gridOf (cols rows : Nat) (raw : List (Option Int)) (die : Int) : List Int :=
  let at' := fun (i j : Int) =>
    if 0 ≤ i ∧ i < (cols : Int) ∧ 0 ≤ j ∧ j < (rows : Int) then (raw.getD ((j * cols + i).toNat) none) else none
  (List.range (cols * rows)).map fun k =>
    match raw.getD k none with
    | some t => t
    | none =>
      let i : Int := ((k % cols : Nat) : Int)
      let j : Int := ((k / cols : Nat) : Int)
      (meanOf ([at' (i - 1) j, at' (i + 1) j, at' i (j - 1), at' i (j + 1)].filterMap id)).getD (die * (gridUnit / 16))

/-- Index and weight along one axis of R402: the fraction is `w` over `2 * size`. -/
def axis (count size x : Nat) : Nat × Int :=
  if count ≤ 1 then (0, 0)
  else
    let i := ((List.range (count - 1)).filter fun i => (2 * i + 1) * size ≤ (2 * x + 1) * count).getLast?.getD 0
    let w : Int := ((2 * x + 1) * count : Nat) - (((2 * i + 1) * size : Nat) : Int)
    (i, max 0 (min (2 * size : Nat) w))

/-- Temperature of a board pixel in 1/16 °C (R400 to R403). -/
def pixelTemp (w h : Nat) (r : Rotation) (x y : Nat) : Int :=
  if r.cols = 0 ∨ r.rows = 0 then r.die
  else
    let (i, fx) := axis r.cols w x
    let (j, fy) := axis r.rows h y
    let g := fun (i j : Nat) => r.grid.getD (j * r.cols + i) 0
    let i' := if r.cols = 1 then i else i + 1
    let j' := if r.rows = 1 then j else j + 1
    let dx : Int := (2 * w : Nat)
    let dy : Int := (2 * h : Nat)
    let top := g i j * (dx - fx) + g i' j * fx
    let bot := g i j' * (dx - fx) + g i' j' * fx
    let num := top * (dy - fy) + bot * fy
    nearest (16 * num) (dx * dy * gridUnit)

/-- The rotation in use; before the first one, the on-die value. -/
def State.latestRotation (s : State) : Rotation := s.rotation.getD ⟨0, 0, [], s.dieTemp⟩

/-- The temperature of a board pixel under a rotation. -/
def State.tempAt (s : State) (r : Rotation) (x y : Nat) : Int :=
  match s.boardSize with
  | some (w, h) => pixelTemp w h r x y
  | none => r.die

/-- The first pixel of a rectangle outside the set in raster order, by its temperature (R406, R408). -/
def State.outsideSet (s : State) (r : Rect) : Option Int :=
  let rot := s.latestRotation
  (r.pixels.find? fun (x, y) => (setBand s.waves.inForce s.parcel (s.tempAt rot x y)).isNone).map fun (x, y) =>
    s.tempAt rot x y

/-- Whole °C, rounded towards minus infinity and held at −128 and +127, as an octet (R408, R525). -/
def wholeDegrees (t : Int) : Nat := (BitVec.ofInt 8 (max (-128) (min 127 (t / 16)))).toNat

end Sys2Proof.Machine
end

