-- ==== Sys2Proof/Machine/Letters.lean ====
section
/-! DEFINITION. What becomes of a letter: dockets and order positions (R257, R271 to R274), refusals (R263, R264),
outcomes (R244 to R246, R281), marks, strikes and suspension (R283 to R289), withdrawal and recall (R293 to R298). -/
namespace Sys2Proof.Machine

/-! ## Refusals without a docket -/

/-- Entries of the refusal list in use. -/
def Desks.refusalTotal (d : Desks) : Nat := d.standing.toList.foldl (fun n x => n + x.refusals) 0

/-- The tenant that a letter belongs to: on a bound courier port the bound one, whatever its header names (R88). -/
def State.owner (s : State) (l : Letter) : Tenant := s.answerTenant l.inlet l.tenant

/-- A letter is refused without a docket (R263, R264): its receipt takes an entry of its tenant, or it is a dead letter.
DESIGN CHOICE: a refusal that RMODE gives no receipt takes no entry and is no dead letter (log 76). -/
def State.refuse (s : State) (l : Letter) (v : Verdict) : State :=
  if sendsFinal l.rmode v.status then
    let t := s.owner l
    if 64 ≤ s.desks.refusalTotal ∨ 4 ≤ (s.desks.standing[t]).refusals then
      (s.notice srcRefusalList t.val).deadLetter l.inlet
    else
      let x := s.desks.standing[t]
      (s.setStanding t { x with refusals := x.refusals + 1 }).receipt l v.status v.detail none (some t)
  else s

/-! ## Outcomes of a letter with a docket -/

/-- A letter comes to its outcome: it leaves the order (R281), its claim and earmark are free (R270, R293), and its
docket waits for the load of `kind` with `body`. -/
def Job.ended (j : Job) (status : Byte) : Job :=
  { j with st := .answering, outcome := some status, claim := 0, earmark := none, asked := none, heldSince := none,
           parts := [], snap := none }

/-- The job is over and leaves the order; its letter, if any, keeps the docket. -/
def Desks.endJob (d : Desks) (j : Nat) (status : Byte) : Desks :=
  { d.setJob j (·.ended status) with order := d.order.filter (· ≠ j), cycle := d.cycle.filter (· ≠ j) }

/-- The final outcome of a letter by RECEIPT (R244, R246). -/
def State.conclude (s : State) (j : Job) (status : Byte) (detail : Nat) : State :=
  match j.letter with
  | none => { s with desks := s.desks.freeJob j.id }
  | some l =>
    let s := { s with desks := s.desks.endJob j.id status }
    let s := { s with energy := { s.energy with weighs := s.energy.weighs.filter (· ≠ j.id) }
                      board := { s.board with releases := s.board.releases.filter (·.job ≠ j.id) } }
    if sendsFinal l.rmode status then s.receipt l status detail (some j.id) none else s.sendNothing l j.id

/-- A letter is answered by an ANSWER, STATUS or WEIGHT letter, whatever its RMODE (R245). -/
def State.answer (s : State) (j : Job) (kind : BitVec 5) (body : List Byte) (plain : Bool) : State :=
  match j.letter with
  | none => s
  | some l =>
    { s with desks := s.desks.endJob j.id stDelivered }.send l.inlet l.ident l.number kind body plain (some j.id) none

/-- An intermediate receipt under PROGRESS (Table 6.14). -/
def State.progress (s : State) (j : Job) (status : Byte) (detail : Nat) : State :=
  match j.letter with
  | none => s
  | some l => if sendsProgress l.rmode then s.receipt l status detail none none else s

/-! ## Fault states (R282 to R291) -/

def faultCode : FaultState → Nat
  | .healthy => 0
  | .cautioned => 1
  | .suspended => 2
  | .recalling => 3

/-- A tenant's standing changes; a change of fault state raises FAULT_STATE (R291). -/
def State.setFault (s : State) (t : Tenant) (x : Standing) : State :=
  let was := (s.desks.standing[t]).fault
  (s.setStanding t x).noticeIf (x.fault ≠ was) srcFaultState (t.val + 256 * faultCode x.fault)

/-- The caution period (R284). -/
def cautionMs : Nat := 60000

/-- R284: a mark or a strike cautions a tenant that is HEALTHY or CAUTIONED. -/
def State.caution (s : State) (t : Tenant) (strikes : Nat) : State :=
  let x := s.desks.standing[t]
  match x.fault with
  | .healthy | .cautioned =>
    s.setFault t { x with fault := .cautioned, strikes := strikes, cautionEnd := some (s.clock.uptime + cautionMs) }
  | .suspended | .recalling => s

/-- A SEAL_FAILED or STALE_FRESHNESS outcome (R283). -/
def State.mark (s : State) (t : Tenant) : State := s.caution t (s.desks.standing[t]).strikes

/-- Length of the k-th suspension in ms (R286). -/
def suspensionMs (k : Nat) : Nat := 1000 * min 960 (60 * 2 ^ (k - 1))

/-! ## Withdrawal (R287, R293 to R296) -/

/-- Its commit has ended. -/
def Job.committed (j : Job) : Bool := j.started && j.parts.all fun p => p.st ≠ .waiting && p.st ≠ .copying

/-- A staged POST, or one still committing for a stage that no RELEASE has reached yet, none of whose rounds has started
(R294, R295, R372). -/
def State.unstartedStage (s : State) (j : Job) : Bool :=
  j.isPost && j.tag ≠ 0 && j.started && j.px = 0 && (!j.released || j.committed)
    && (s.board.lanesOf j.id).all (fun l => !((s.board.lanes[l]).st.started))
    && !(j.parts.any (·.st = .done))

/-- The pixels that a POST copied are set back, its lanes, earmark and docket are freed, and it is answered (R295,
R366). -/
def State.withdrawStaged (s : State) (j : Job) (status : Byte) (detail : Nat) : State :=
  let copied := (j.parts.filter fun p => p.st ≠ .waiting && p.st ≠ .copying).map (·.rect)
  let s := { s with
    board := s.board.freeLanes (s.board.lanesOf j.id) s.clock.uptime
    store := { s.store.restoreTarget copied with posts := s.store.posts.filter (·.job ≠ j.id) } }
  s.conclude j status detail

/-- One letter of a tenant that is recalled or suspended. -/
def State.withdrawJob (s : State) (status : Byte) (j : Job) : State :=
  if j.outcome.isSome then s
  else if !j.started then s.conclude j status 0
  else if s.unstartedStage j then
    (if j.committed then s.withdrawStaged j status 0 else s.setJob j.id fun x => { x with withdrawn := some status })
  else s

/-- Every letter of a tenant that has not started (R287, R293, R295). -/
def State.withdraw (s : State) (t : Tenant) (status : Byte) : State :=
  (s.desks.jobs.filter fun j => j.tenant = some t).foldl (fun s j => s.withdrawJob status j) s

/-- R283, R286, R289: a strike with the status it was given. -/
def State.strike (s : State) (t : Tenant) (status : Byte) : State :=
  let s := s.notice srcStrike (t.val + 256 * status.toNat)
  let x := s.desks.standing[t]
  match x.fault with
  | .suspended | .recalling => s
  | .healthy | .cautioned =>
    let n := x.strikes + 1
    if n < 3 then s.caution t n
    else if t = 0 then (s.caution t 0).notice srcPostmasterStrikes 0
    else
      let k := x.suspensions + 1
      let s := s.setFault t { x with fault := .suspended, strikes := 0, cautionEnd := none, suspensions := k
                                     suspensionEnd := some (s.clock.uptime + suspensionMs k) }
      s.withdraw t stSuspended

/-! ## Recall (R297, R298) -/

/-- A letter of the tenant has started and its rounds have not ended (R294). -/
def State.hasStarted (s : State) (t : Tenant) : Bool :=
  s.desks.jobs.any fun j => j.tenant = some t && j.started && j.outcome.isNone

/-- The recall of a tenant ends: the target is HEALTHY and the RECALL letters are DELIVERED (R297). -/
def State.recallEnds (s : State) (t : Tenant) (js : List Nat) : State :=
  let x := s.desks.standing[t]
  let s := { s with desks := { s.desks with recalls := s.desks.recalls.filter (·.1 ≠ t) } }
  let s := s.setFault t { x with fault := .healthy, strikes := 0, cautionEnd := none, suspensionEnd := none }
  let s := js.foldl (fun s i => match s.job? i with
    | some j => s.conclude j stDelivered 0
    | none => s) s
  s.notice srcRecallDone t.val

/-- Recalls whose last round has ended, one after another (R297); `n` bounds their number. -/
def State.recallsDone (s : State) : Nat → State
  | 0 => s
  | n + 1 =>
    match s.desks.recalls.find? (fun r => !(s.hasStarted r.1)) with
    | none => s
    | some r => (s.recallEnds r.1 r.2).recallsDone n

/-! ## Dockets and order positions -/

/-- A new job. -/
def Job.new (id : Nat) (kind : JobKind) (l : Option Letter) (st : JobState) (claim : Nat) : Job :=
  { id := id, kind := kind, letter := l, st := st, rect := none, org := (0, 0), mode := 0, tag := 0, parts := [], started := false,
    released := false, spared := [], earmark := none, need := 0, xneed := 0, asked := none, heldSince := none, px := 0,
    claim := claim, snap := none, withdrawn := none, outcome := none }

/-- BOX of a letter that names one (R273). -/
def Letter.box? (l : Letter) : Option Nat :=
  match l.kind with
  | some .post => some (bBox l.body)
  | some .peek => some (peekBox l.body)
  | some .map => some (bBox l.body)
  | _ => none

/-- R271 within one completion cycle: tenant, then letter number, then inlet. -/
def cycleBefore (a b : Letter) : Bool :=
  if a.tenant.val ≠ b.tenant.val then a.tenant.val < b.tenant.val
  else if precedes a.number b.number then true
  else if precedes b.number a.number then false
  else inletCode a.inlet ≤ inletCode b.inlet

/-- An element put just ahead of another. -/
def insertAhead (x y : Nat) : List Nat → List Nat
  | [] => [x]
  | a :: r => if a = y then x :: a :: r else a :: insertAhead x y r

/-- An element put ahead of the last ones of a list that are all of a kind. -/
def insertLate {α : Type} (x : α) (kind : α → Bool) (l : List α) : List α :=
  let tail := (l.reverse.takeWhile kind).reverse
  l.take (l.length - tail.length) ++ x :: tail

/-- R273: the letters of the same tenant and box, holding dockets and not started, that a new letter precedes. -/
def Desks.overtaken (d : Desks) (l : Letter) : List Nat :=
  d.order.filter fun i => match d.jobs.find? (·.id = i) with
    | some x => (match x.letter with
        | some m => m.tenant = l.tenant && m.box?.isSome && m.box? = l.box? && !x.started && precedes l.number m.number
        | none => false)
    | none => false

/-- A POST, by its letter, comes before another of its tenant and box in letter-number order (R273, R274). -/
def Letter.precedesPost (l m : Letter) : Bool :=
  l.kind = some .post && m.kind = some .post && m.tenant = l.tenant && m.box? = l.box? && precedes l.number m.number

/-- The rectangles that a new letter must spare: those of POSTs it precedes that have started (R274). -/
def Desks.startedAfter (d : Desks) (l : Letter) : List Rect :=
  (d.jobs.filter fun x => x.started && (x.letter.map l.precedesPost).getD false).filterMap (·.rect)

/-- A render has no letter. -/
def Desks.unlettered (d : Desks) (i : Nat) : Bool :=
  match d.jobs.find? (·.id = i) with
  | some x => x.letter.isNone
  | none => false

/-- The renders granted in a completion cycle stand ahead of every letter of that cycle (R496). -/
def Desks.rendersFirst (d : Desks) : List Nat :=
  let mine := fun (i : Nat) => d.cycle.contains i && d.unlettered i
  let before := d.order.takeWhile fun i => !(d.cycle.contains i)
  let rest := d.order.drop before.length
  before ++ rest.filter mine ++ rest.filter fun i => !(mine i)

/-- A letter completes: unless it ties with the one before, a new completion cycle begins (R271). With a tie, the renders
that were granted since the cycle began were granted in it, and take their positions ahead of its letters (R496). -/
def State.newCycle (s : State) (tie : Bool) : State :=
  if tie then { s with desks := { s.desks with order := s.desks.rendersFirst } }
  else { s with desks := { s.desks with cycle := [] } }

/-- The letter takes its docket and its order position (R257, R271, R273). It stands behind every letter of an earlier
cycle and, within its cycle, where R271 puts it; the jobs are kept in that completion order (R110). -/
def Desks.grantDocket (d : Desks) (l : Letter) (claim : Nat) : Desks :=
  let id := d.nextJob
  let behind := d.cycle.filter fun i => match (d.jobs.find? (·.id = i)).bind (·.letter) with
    | some m => cycleBefore l m
    | none => false
  let order := insertLate id behind.contains d.order
  let order := match d.overtaken l with
    | y :: _ => if (order.idxOf y) < (order.idxOf id) then insertAhead id y (order.filter (· ≠ id)) else order
    | [] => order
  let job := { Job.new id .letter (some l) .sealWait claim with spared := d.startedAfter l }
  { d with jobs := insertLate job (fun j => behind.contains j.id || (!behind.isEmpty && j.letter.isNone)) d.jobs
           order := order, nextJob := id + 1, cycle := d.cycle ++ [id] }

/-- R138, R139: a letter that has passed orders 1 to 8 is compared with the last four of its tenant and stream on the
other channel within 1,000 ms. -/
def Channel.hasDuplicate (c : Channel) (r : DupRecord) : Bool :=
  let same := c.dupRec.filter fun x => idTenant x.ident = idTenant r.ident && idStream x.ident = idStream r.ident
  (same.take 4).any fun x =>
    r.time < x.time + 1001 && idRoute x.ident = idRoute r.ident && idNode x.ident = idNode r.ident
      && idKind x.ident = idKind r.ident && x.number = r.number && x.check = r.check

/-- It enters the record of its own channel, newest first; what is too old to be compared leaves it. -/
def Channel.record (c : Channel) (r : DupRecord) : Channel :=
  { c with dupRec := r :: c.dupRec.filter fun x => r.time < x.time + 1001 }

/-- Orders 10 to 12 of Table 6.5, and the docket (R85, R88, R256 to R258, R261, Table 7.3). DESIGN CHOICE: at order 10 the
port binding of R88 is tested before R85 (log 76). -/
def State.grantDocket (s : State) (l : Letter) (k : Kind) (claim : Nat) : State :=
  let t := l.tenant
  let other : Bool := match l.inlet with
    | .courier p => match s.bound p with
      | some b => decide (b ≠ t)
      | none => false
    | .channel _ => false
  if other then
    let bit := match l.inlet with | .courier .b => 256 | _ => 0
    (s.notice srcPortMismatch (t.val + bit)).refuse l ⟨stNotPermitted, 0⟩
  else if !((s.fuses.tenants[t]).enable) then (s.notice srcDisabledSender t.val).refuse l ⟨stNotPermitted, 0⟩
  else
    let quota := (s.fuses.tenants[t]).quota
    let limit := if k.express then quota else quota - 2
    if limit ≤ s.dockets t then s.refuse l ⟨stQuota, 1⟩
    else
      match (s.desks.standing[t]).fault with
      | .suspended => s.refuse l ⟨stSuspended, 0⟩
      | .recalling => s.refuse l ⟨stRecalled, 0⟩
      | .healthy | .cautioned =>
        let s := { s with desks := s.desks.grantDocket l claim }
        if quota - 2 ≤ s.ordinary t ∧ (s.desks.standing[t]).quotaNoted = false ∧ k.express = false then
          (s.setStanding t { s.desks.standing[t] with quotaNoted := true }).notice srcQuotaLimit t.val
        else s

end Sys2Proof.Machine
end

