-- ==== Sys2Proof/Machine/Flags.lean ====
section
/-! DEFINITION. Tile states, node conditions and flags (Tables 12.1, 12.4, 2.13), and the stamp: icons, tile markers,
4-digit field, segments (Tables 12.5, 12.6, 12.9). -/
namespace Sys2Proof.Machine

/-! ## Tiles (R481, R482, R485, R486) -/

/-- Tile states (Table 12.1). -/
inductive TileState where
  | empty
  | ageUnknown
  | fresh
  | stale
deriving DecidableEq, Repr

/-- State of one tenant's reading. -/
def readingState : Option Reading → TileState
  | none => .empty
  | some r => if r.stale then .stale else if r.time.isSome then .fresh else .ageUnknown

/-- R485: a reading's own alarm. -/
def bodyAlarm (b : List Byte) : Bool :=
  ((rdFlags b).testBit 0 && rdValue b < rdAlo b) || ((rdFlags b).testBit 1 && rdAhi b < rdValue b)
    || (rdFlags b).testBit 2

/-- The latest reading of this boot is in alarm (R482). -/
def readingAlarm : Option Reading → Bool
  | none => false
  | some r => r.time.isSome && bodyAlarm r.body

/-- State of a tile (Table 12.1). -/
def tileState (rs : Vector (Option Reading) 32) : TileDef → TileState
  | .plain t => readingState rs[t]
  | .composite a b =>
    let x := readingState rs[a]
    let y := readingState rs[b]
    if x = .stale ∨ y = .stale then .stale
    else if x = .empty ∨ y = .empty then .empty
    else if x = .ageUnknown ∨ y = .ageUnknown then .ageUnknown
    else .fresh

/-- Alarm state of a tile (R482). -/
def tileAlarm (rs : Vector (Option Reading) 32) (d : TileDef) : Bool :=
  (tileState rs d = .fresh || tileState rs d = .stale) &&
    match d with
    | .plain t => readingAlarm rs[t]
    | .composite a b => readingAlarm rs[a] || readingAlarm rs[b]

/-- The tenants that feed a tile. -/
def TileDef.feeds : TileDef → Tenant → Bool
  | .plain a, t => a = t
  | .composite a b, t => a = t || b = t

/-- The tiles that the LAYOUT defines (R51, R62). -/
def State.tiles (s : State) : List (Fin 32 × TileDef) :=
  (List.finRange 32).filterMap fun k => (tileDef s.layout k.val).map fun d => (k, d)

/-- A tile is STALE; a tile is in alarm. -/
def State.tileStale (s : State) (k : Nat) : Bool :=
  match tileDef s.layout k with
  | some d => tileState s.store.readings d = .stale
  | none => false
def State.tileAlarmed (s : State) (k : Nat) : Bool :=
  match tileDef s.layout k with
  | some d => tileAlarm s.store.readings d
  | none => false

/-! ## Node conditions (Table 12.4) -/

/-- The board is disabled (Table 12.4: R71, R348, R455, R456). -/
def State.boardDisabled (s : State) : Bool :=
  s.board.loopOpen || s.board.goodTimeout.isSome || s.setup.railsBarred

/-- The core runs on the limp clock (R564). -/
def State.limp (s : State) : Bool := s.clock.src = .limp

def State.anyAlarm (s : State) : Bool := s.tiles.any fun x => tileAlarm s.store.readings x.2
def State.anyStale (s : State) : Bool := s.tiles.any fun x => tileState s.store.readings x.2 = .stale
def State.anyAgeUnknown (s : State) : Bool :=
  s.tiles.any fun x => tileState s.store.readings x.2 = .ageUnknown || tileState s.store.readings x.2 = .empty

/-- A record has failed its check (R94). -/
def Fuses.anyFail (f : Fuses) : Bool := f.tfail ≠ 0 || f.dfail ≠ 0 || f.kfail ≠ 0

def State.nodeFault (s : State) : Bool :=
  s.fuses.anyFail || s.setup.vfail ≠ 0 || s.duplicate || s.limp

def State.energyShort (s : State) : Bool :=
  s.energy.shortHeld || (s.energy.latest.map (·.failed)).getD false || s.setup.chargerBarred

def State.storeDegraded (s : State) : Bool := s.store.degraded ≠ []

/-- The states of "bus degraded". -/
def ChanState.degrades : ChanState → Bool
  | .errorPassive | .busOff | .dead | .laidUp | .offBus | .silent => true
  | .reset | .unused | .held | .matching | .integrating | .errorActive | .watchListener | .unpowered => false

def State.busDegraded (s : State) : Bool :=
  (s.inUse .a && s.chanA.st.degrades) || (s.inUse .b && s.chanB.st.degrades)

/-- CONDITION of a STATUS letter (Table 6.23). -/
def bitOf (i : Nat) (b : Bool) : Nat := if b then 2 ^ i else 0
def State.condition (s : State) : BitVec 8 :=
  BitVec.ofNat 8 (bitOf 0 s.setup.unsorted + bitOf 1 s.fuses.fault + bitOf 2 s.duplicate + bitOf 3 s.limp
    + bitOf 4 s.boardDisabled + bitOf 5 s.storeDegraded + bitOf 6 s.energyShort)

/-- The fields of the system rows that can change in a boot: CONDITION, and whole hours of uptime (R504, R505). -/
def State.systemFields (s : State) : BitVec 8 × Nat := (s.condition, s.clock.uptime / 3600000)

/-! ## Flags (R61, R62, R506 to R511, R77, R121, R607) -/

/-- FLAGMAP. -/
def State.flagMap (s : State) : Nat := s.setup.code 12

/-- Flags released whatever their assignment (R511, R77, R600). -/
def State.flagsReleased (s : State) : Bool :=
  s.mode = .off || s.mode = .inReset || s.mode = .doze || s.pins.resetLow || s.resetClosing || !s.start.strapped
    || !s.setup.known 12

/-- Every flag in its fail state (R77, R121, R510, R607; log 16: a node in fuse mode never ends a quick check). -/
def State.flagsFail (s : State) : Bool :=
  s.setup.unsorted || s.fuses.fault || s.limp || !s.start.quickChecked

/-- The condition that FLAGMAP assigns to flag `k` (Table 2.13). -/
def State.flagCondition (s : State) (k : Nat) : Bool :=
  let either := fun (t : Nat) => s.tileAlarmed t || s.tileStale t
  let four := (List.range 4).any fun i => either (4 * k + i)
  match s.flagMap % 8 with
  | 0 => either k
  | 1 => s.tileAlarmed k
  | 2 => s.tileStale k
  | 3 => four
  | 4 => if k < 4 then s.tileAlarmed k else s.tileStale (k - 4)
  | 5 => if k = 7 then s.nodeFault else either k
  | 6 => if k = 7 then s.nodeFault else four
  | _ =>
    match k with
    | 0 => s.anyAlarm
    | 1 => s.anyStale
    | 2 => s.anyAgeUnknown
    | 3 => s.nodeFault
    | 4 => s.energyShort
    | 5 => s.boardDisabled
    | 6 => s.storeDegraded
    | _ => s.busDegraded

/-- Flag `k` sinks (R506). -/
def State.flagSinks (s : State) (k : Nat) : Bool :=
  if s.flagsReleased then false
  else
    let fail := s.flagsFail || s.flagCondition k
    if s.flagMap < 8 then fail else !fail

/-- The eight flag outputs: bit k is 1 while flag k sinks. -/
def State.flags (s : State) : BitVec 8 :=
  BitVec.ofNat 8 ((List.range 8).foldl (fun n k => n + bitOf k (s.flagSinks k)) 0)

/-! ## The 4-digit field (R78, R79, R96, R98, R174, R515) -/

/-- A decimal digit in ASCII. -/
def digit (n : Nat) : Byte := BitVec.ofNat 8 (0x30 + n % 10)

/-- A letter, a space and a two-digit number. -/
def fieldCode (c : Byte) (n : Nat) : Vector Byte 4 := #v[c, 0x20, digit (n / 10), digit n]

/-- The number in four places, right-aligned without leading zeros, held at 9999 (R515). -/
def fieldAge (n : Nat) : Vector Byte 4 :=
  let n := min n 9999
  let p := fun (d : Nat) => if n < d then (0x20 : Byte) else digit (n / d)
  #v[p 1000, p 100, p 10, digit n]

/-- The lowest place at which a list holds. -/
def lowest (l : List Bool) : Nat := l.findIdx id

/-- A status code of the field, in the order of R78, R98, R96, R174, R79 (log 17). DESIGN CHOICE: in fuse mode it shows the
lifecycle as this cold start read it, also after a BURN in the same boot (R81, R98; log 23). -/
def State.fieldStatus (s : State) : Option (Vector Byte 4) :=
  if s.setup.unsorted then some (fieldCode 0x55 (lowest (s.setup.codes.toList.map (·.isNone)) + 1))
  else if s.setup.fuseen then
    some (fieldCode 0x50 (match s.fuses.life with | .blank => 0 | .configured => 1 | .sealed => 2))
  else if s.fuses.tfail ≠ 0 then some (fieldCode 0x46 1)
  else if s.fuses.dfail ≠ 0 then some (fieldCode 0x46 2)
  else if s.fuses.kfail ≠ 0 then some (fieldCode 0x46 3)
  else if s.duplicate then some #v[0x64, digit (s.node / 100), digit (s.node / 10), digit s.node]
  else if s.setup.vfail ≠ 0 then
    some (fieldCode 0x72 (21 + lowest ((List.range 6).map fun i => s.setup.vfail.getLsbD i)))
  else none

/-- The acceptance uptimes that count for the age: tenants that feed a tile, with tiles FRESH or STALE (R515). -/
def State.ages (s : State) : List Nat :=
  (List.finRange 32).filterMap fun t =>
    let on := s.tiles.any fun x => x.2.feeds t
      && (tileState s.store.readings x.2 = .fresh || tileState s.store.readings x.2 = .stale)
    if on then (s.store.readings[t]).bind (·.time) else none

/-- What the field shows at an update (R515, R516). -/
def State.fieldNow (s : State) : Vector Byte 4 :=
  match s.fieldStatus with
  | some c => c
  | none =>
    match s.ages with
    | [] => #v[0x2D, 0x2D, 0x2D, 0x2D]
    | a :: r => fieldAge ((s.clock.uptime - r.foldl min a) / 60000)

/-- Segments a to g of a character, bit 0 for a (Table 12.9). -/
def charSegments (c : Byte) : BitVec 7 :=
  match c.toNat with
  | 0x30 => 0b0111111
  | 0x31 => 0b0000110
  | 0x32 => 0b1011011
  | 0x33 => 0b1001111
  | 0x34 => 0b1100110
  | 0x35 => 0b1101101
  | 0x36 => 0b1111101
  | 0x37 => 0b0000111
  | 0x38 => 0b1111111
  | 0x39 => 0b1101111
  | 0x55 => 0b0111110
  | 0x46 => 0b1110001
  | 0x50 => 0b1110011
  | 0x72 => 0b1010000
  | 0x64 => 0b1011110
  | 0x2D => 0b1000000
  | _ => 0

/-! ## Icons and segments -/

/-- A job that is a settling or cleaning round. -/
def Job.isTidy (j : Job) : Bool := match j.kind with
  | .settling _ _ | .cleaning _ => true
  | .letter | .render _ => false

/-- The charger delivers current: it runs, and VHOLD as last seen is short of its target (Table 12.6, R36, R583;
log 65). -/
def State.charging (s : State) : Bool := s.energy.charger = .on && s.energy.vhold < 10 * s.vholdTarget

/-- The icons (Table 12.6). -/
def State.icons (s : State) : List Bool :=
  [s.pins.vsys, s.charging, s.energyShort, !s.board.allFree, s.boardDisabled,
   s.chanA.st = .errorActive, s.chanB.st = .errorActive, s.busDegraded,
   (match s.desks.lastCourier with
    | some t => decide (s.clock.uptime ≤ t + 2000)
    | none => false),
   s.listenOnly, decide (s.setup.known 7 ∧ s.setup.code 7 ≤ 7), s.anyAlarm, s.anyStale, s.anyAgeUnknown,
   s.storeDegraded, s.nodeFault, s.limp, s.fuses.life = .sealed, s.fuses.evaluated,
   s.desks.jobs.any (·.st = .deferred),
   s.desks.jobs.any (fun j => j.isTidy && (s.board.lanesOf j.id).any fun l => (s.board.lanes[l]).st.started),
   s.mode = .watch || s.mode = .doze, s.thFailed ≠ 0, s.duplicate]

/-- A pattern at a moment of uptime (R519); blinking segments are held on in DOZE (R524). -/
def patternOn (p : Fin 4) (uptime : Nat) (dozing : Bool) : Bool :=
  match p with
  | 0 => false
  | 1 => true
  | 2 => dozing || uptime % 1000 < 500
  | 3 => dozing || uptime % 250 < 125

/-- A tile marker (R514). -/
def State.marker (s : State) (k : Nat) : Fin 4 :=
  match s.tileAlarmed k, s.tileStale k with
  | true, false => 1
  | true, true => 3
  | false, true => 2
  | false, false => 0

/-- The stamp is blanked or not driven (R72, R457, R523, Table 14.6). -/
def State.stampBlank (s : State) : Bool := s.setup.stampBarred || s.stamp.loopOpen || !s.stamp.driven

/-- The segment at SEG `p`, COM `q` is lit (Table 12.5). -/
def State.segment (s : State) (p q : Nat) : Bool :=
  !s.stampBlank &&
    (let i := 4 * p + q
     if p < 8 then
       let c := charSegments (s.stamp.field.toList.getD (p / 2) 0x20)
       if p % 2 = 0 then c.getLsbD q else q ≠ 3 && c.getLsbD (4 + q)
     else if p < 16 then patternOn (s.stamp.segs.toList.getD (i - 32) 0) s.clock.uptime s.stamp.dozing
     else if p < 22 then (if s.stamp.dozing then s.stamp.held else s.icons).getD (i - 64) false
     else if p < 30 then patternOn (s.marker (i - 88)) s.clock.uptime s.stamp.dozing
     else false)

end Sys2Proof.Machine
end

