-- ==== Sys2Proof/Machine/EnergyOps.lean ====
section
/-! DEFINITION. Energy arithmetic in femtojoules (R432, R433, R437, R439 to R446, R452), the asking order, the grants of a
weigh-in (R26), and the condition of the board. -/
namespace Sys2Proof.Machine

/-- Femtojoules of a millijoule. -/
def fJ : Nat := 1000000000000

/-- mJ rounded upwards, and downwards. -/
def mJup (e : Nat) : Nat := (e + fJ - 1) / fJ
def mJdown (e : Nat) : Nat := e / fJ

/-! ## The weigh-in's result -/

/-- 1,024 µV in counts of 0.25 µV (R435), and 4.5 V against counts of 4.4 mV (R434). -/
def dvFull : Nat := 4096
def v0Low (v0 : Nat) : Bool := 44 * v0 ≤ 45000

/-- E_U of R433: I in µA, V0 and ΔV in counts. ½ · C · (V² − 4.5²) with C = I · 0.9 ms ÷ (ΔV + 2 counts). -/
def usable (i v0 dv : Nat) : Nat :=
  let v := 44 * (v0 - 2)
  if v ≤ 45000 then 0 else 18000 * i * (v * v - 45000 * 45000) / (dv + 2)

/-- The closing floor E_F (R441). -/
def State.floor (s : State) : Nat := 600000000 * s.dmax + 40 * fJ

/-- R437: VHOLD in 0.1 mV lies below V_G for held earmarks `h` and credited capacitance `c`. -/
def belowGuard (v floor h : Nat) (c : Nat × Nat) : Bool :=
  v < 88 || (v - 88) * (v - 88) * 18000 * c.1 < 45000 * 45000 * 18000 * c.1 + (floor + h) * c.2

/-! ## Needs (R442, R443, R452) -/

/-- The panel term and the rest of a need, in fJ, margin included. -/
def panelNeed (px frames ohms : Nat) : Nat := 25 * px * frames * ohms
def baseNeed (px : Nat) : Nat := 5625000 * px + 2500000000000

/-- The need against VHOLD and against XHOLD. -/
def State.needOf (s : State) (px frames : Nat) : Nat × Nat :=
  let panel := panelNeed px frames s.epaneOhms
  if s.setup.hvsrc then (baseNeed px, panel) else (baseNeed px + panel, 0)

/-- The frame count of R416 and R443. -/
def State.needFrames (s : State) (k : JobKind) (mode : Nat) : Nat :=
  match k with
  | .settling _ _ => s.tailLen
  | .letter | .render _ | .cleaning _ => (s.modeLen mode).getD 0 + s.tailLen

/-- H, and the panel parts held against XHOLD. -/
def State.held (s : State) : Nat := s.desks.jobs.foldl (fun n j => n + (j.earmark.map (·.held)).getD 0) 0
def State.xheld (s : State) : Nat := s.desks.jobs.foldl (fun n j => n + (j.earmark.map (·.xheld)).getD 0) 0

/-- VHOLD, as last seen, lies below the guard voltage as it stands now (R437). -/
def State.guarded (s : State) : Bool :=
  match s.energy.latest.bind (·.cap) with
  | some c => belowGuard s.energy.vhold s.floor s.held c
  | none => false

/-- Energy declared by XHOLD (Table 2.10). -/
def State.declared (s : State) : Nat := fJ * xholdMJ (s.setup.code 9)

/-! ## Conditions -/

/-- R67 or R69 keeps the charger off. -/
def State.chargerBarred (s : State) : Bool := s.setup.chargerBarred

/-- Unsorted, fuse mode or fuse fault: the node starts no round (R37, R76, R121). -/
def State.barred (s : State) : Bool := s.setup.unsorted || s.setup.fuseen || s.fuses.fault

/-- The node works letters and rounds. -/
def State.awake (s : State) : Bool := s.mode = .active || s.mode = .quiet || s.mode = .coldStart

/-- A weigh-in may run (R438, R570). -/
def State.mayWeigh (s : State) : Bool := s.awake && !s.shutting && !s.barred && !s.limp

/-- An earmark may be asked for (R461, R570). -/
def State.mayAsk (s : State) : Bool := s.awake && !s.shutting && !s.barred && !s.limp

/-- Deferred jobs may be tested, on the limp clock too (R407, R461, R570, R609). -/
def State.mayTest (s : State) : Bool := s.awake && !s.shutting && !s.barred && s.start.rotated

/-- Commits and rounds may start: the first rotation has completed (R609), the core is on the PLL (R570, R573), and the
node is not shutting down (R461). -/
def State.mayStart (s : State) : Bool := s.mayAsk && s.start.rotated

/-- The latest result is no older than 2 s (R436). -/
def State.freshWeigh (s : State) : Bool :=
  match s.energy.latest with
  | some w => s.clock.uptime ≤ w.time + 2000
  | none => false

/-- A weigh-in starts, unless one runs: the charger pauses (R430, R431). -/
def State.startWeigh (s : State) : State :=
  if s.mayWeigh && !s.energy.weighing then
    { s with energy := { s.energy with weighing := true
                                       charger := if s.energy.charger = .on then .paused else s.energy.charger } }
  else s

/-! ## Granting (R26, R444) -/

/-- Jobs that wait for an earmark, in asking order. -/
def State.askers (s : State) : List Job :=
  sortBy (fun a b => a.asked.getD 0 ≤ b.asked.getD 0) (s.desks.jobs.filter fun j => j.asked.isSome && j.earmark.isNone)

/-- The usable energy left covers a need. -/
def State.covers? (s : State) (need xneed : Nat) : Bool :=
  match s.energy.latest with
  | some w => !s.guarded && s.floor + s.held + need ≤ w.eu
      && (xneed = 0 || s.xheld + xneed ≤ s.declared) && (!s.setup.hvsrc || xneed ≤ s.declared)
  | none => false

/-- The shortfall of R446 in mJ. DESIGN CHOICE: with HVSRC 1 it is that of VHOLD alone, over the need's part there (R452), and 1
when only XHOLD is short (log 30). -/
def State.shortfall (s : State) (need : Nat) : Nat :=
  let eu := (s.energy.latest.map (·.eu)).getD 0
  max 1 (mJup (s.floor + s.held + need - eu))

/-- The readings as a render sees them (R495). -/
def State.snapshot (s : State) : Snap := ⟨s.store.readings, s.clock.uptime⟩

/-- STAGED lanes of a job become ARMED (R372). -/
def Board.armJob (b : Board) (j : Nat) : Board :=
  { b with lanes := b.lanes.map fun l => if l.job = j && l.st = .staged then { l with st := .armed } else l }

/-- What a granted job does: a POST may commit, or, released without an earmark, arms its STAGED lanes (R372); a render
takes its snapshot and its order position in the completion cycle that runs (R495, R496); a settling or cleaning round, which
copies nothing, asks for its lane. DESIGN CHOICE: a render of the system rows begins, for R505, with this grant, not with its
copy or its first panel frame (log 51). -/
def State.onGrant (s : State) (j : Job) : State :=
  match j.kind with
  | .letter => if j.started then { s with board := s.board.armJob j.id }
               else s.setJob j.id fun x => { x with st := .committing }
  | .render tile =>
    let r := s.renders[tile]
    { s with renders := s.renders.set tile { r with pending := false, since := none, waitNoted := false, drawn := true }
             idle := if tile = 32 then { s.idle with systemRowsAt := some s.clock.uptime, systemRows := some s.systemFields }
                     else s.idle
             desks := { s.desks.setJob j.id (fun x => { x with st := .committing, snap := some s.snapshot }) with
                        order := s.desks.order ++ [j.id], cycle := s.desks.cycle ++ [j.id] } }
  | .settling _ _ | .cleaning _ =>
    let n := s.store.nextRound
    { s.setJob j.id (fun x => { x with
          st := .running, started := true
          parts := match x.rect with
            | some r => [⟨r, .copied, [], n⟩]
            | none => [] }) with
      store := { s.store with nextRound := n + 1 } }

/-- One earmark granted (R444, R445). -/
def State.grantOne (s : State) (j : Job) : State :=
  let e : Earmark := { held := j.need, xheld := j.xneed, seq := s.energy.nextGrant, weigh := none, expiry := none }
  let s := s.setJob j.id fun x => { x with earmark := some e, asked := none, heldSince := none }
  let s := { s with energy := { s.energy with nextGrant := s.energy.nextGrant + 1 } }
  s.onGrant j

/-- A job that the energy left does not cover: a POST becomes Held, with its HELD receipt at its entry (R446). -/
def State.hold (s : State) (j : Job) : State :=
  let s' := s.setJob j.id fun x => { x with st := if x.isPost && !x.started then .held else x.st
                                            heldSince := if x.heldSince.isSome then x.heldSince
                                                         else some s.clock.uptime }
  if j.isPost ∧ j.started = false ∧ j.st ≠ .held then s'.progress j stHeld (min 0xFFFFFF (s.shortfall j.need)) else s'

/-- R447: a POST waits in the Held state and asks for nothing while the board is disabled. -/
def State.holdDisabled (s : State) (j : Job) : State :=
  let s' := s.setJob j.id fun x => { x with st := if x.started then x.st else .held, asked := none, heldSince := none }
  if j.started = false ∧ j.st ≠ .held then s'.progress j stHeld 0 else s'

/-- Ordinary grants in asking order, until a need does not fit (R26); WEIGH letters are passed over here. `open'`: no
earlier need has failed. -/
def State.grantJobs (s : State) (open' : Bool) : List Job → State
  | [] => s
  | j :: r =>
    if j.letterKind = some .weigh then s.grantJobs open' r
    else if open' && s.covers? j.need j.xneed then (s.grantOne j).grantJobs true r
    else (s.hold j).grantJobs false r

/-- Grants on the latest result when it is fresh, else a weigh-in (R436). -/
def State.grantOrWeigh (s : State) : State :=
  if s.freshWeigh && !s.energy.weighing && !s.limp then s.grantJobs true s.askers else s.startWeigh

/-- A job joins the asking order with its need (R26). -/
def State.ask (s : State) (j : Nat) (px frames : Nat) : State :=
  let (need, xneed) := s.needOf px frames
  { s.setJob j (fun x => { x with need := need, xneed := xneed, asked := some s.energy.nextAsk }) with
    energy := { s.energy with nextAsk := s.energy.nextAsk + 1 } }

/-- QUIET ends when a commit, a lane request or a render asks to proceed (R586). -/
def State.stir (s : State) : State := { s with mode := if s.mode = .quiet then .active else s.mode }

/-- The board becomes disabled: the earmarks of STAGED rounds are dropped (R450). -/
def State.dropStaged (s : State) : State :=
  { s with desks := { s.desks with jobs := s.desks.jobs.map fun j =>
      if (s.board.lanesOf j.id).any (fun l => (s.board.lanes[l]).st = .staged) then { j with earmark := none } else j } }

end Sys2Proof.Machine
end

