-- ==== Sys2Proof/Machine/Tiles.lean ====
section
/-! DEFINITION. What a tile and the system rows show (R498, R500 to R504, Table 12.3), pixel by pixel from a snapshot. The
spec gives the elements and their places; glyph shapes and the few placements it leaves open are named in log 9 and
log 18. -/
namespace Sys2Proof.Machine

/-! ## Text -/

/-- Codes of the built-in font beyond ASCII: °, ³, µ, Δ and the ellipsis. -/
def chDegree : Nat := 0x80
def chCube : Nat := 0x81
def chMicro : Nat := 0x82
def chDelta : Nat := 0x83
def chEllipsis : Nat := 0x84

/-- Characters of an ASCII text. -/
def txt (s : String) : List Nat := s.toList.map (·.toNat)

/-- Decimal digits of a number, at least `n` of them. -/
def decimal (n v : Nat) : List Nat :=
  let d := txt (toString v)
  List.replicate (n - d.length) 0x30 ++ d

/-- Text of a unit (Table 12.2). -/
def unitText (u : Nat) : List Nat :=
  match u with
  | 1 => txt "bar" | 2 => txt "kPa" | 3 => txt "MPa" | 4 => txt "m" | 5 => txt "m" ++ [chCube] ++ txt "/h"
  | 6 => txt "L/s" | 7 => chDegree :: txt "C" | 8 => txt "%" | 9 => txt "pH" | 10 => txt "NTU" | 11 => txt "mg/L"
  | 12 => txt "V" | 13 => txt "A" | 14 => txt "kW" | 15 => txt "m" ++ [chCube] | 16 => chMicro :: txt "S/cm"
  | 17 => txt "rpm"
  | _ => []

/-- VALUE ÷ 10^DEC with DEC decimals, "-" when negative; then a space and the unit, when there is one. -/
def valueText (v : Int) (dec unit : Nat) : List Nat :=
  let a := v.natAbs
  let whole := decimal 1 (a / 10 ^ dec)
  let frac := if dec = 0 then [] else 0x2E :: decimal dec (a % 10 ^ dec)
  let u := unitText unit
  (if v < 0 then [0x2D] else []) ++ whole ++ frac ++ (if u.isEmpty then [] else 0x20 :: u)

/-- LABEL without its padding. -/
def labelText (b : List Byte) : List Nat := ((rdLabel b).takeWhile (· ≠ 0)).map (·.toNat)

/-- A text cut to `n` places with "…" when too long. -/
def cutText (n : Nat) (t : List Nat) : List Nat := if t.length ≤ n then t else t.take (n - 1) ++ [chEllipsis]

/-- The pixel (x, y) is ink of a text drawn at (x0, y0) with a scale. -/
def textInk (t : List Nat) (x0 y0 scale x y : Nat) : Bool :=
  x0 ≤ x && y0 ≤ y && y < y0 + 16 * scale &&
    match t[(x - x0) / (8 * scale)]? with
    | some c => Config.glyph c ((x - x0) / scale % 8) ((y - y0) / scale)
    | none => false

/-! ## What a tile draws from -/

/-- A tile's value, range and texts in one snapshot. -/
structure TileFace where
  state : TileState
  alarm : Bool
  label : List Nat
  /-- value, bottom and top of the range; `none`: nothing to draw -/
  value : Option (Int × Int × Int)
  range : Option (Int × Int)
  text : List Nat
  alo : Option Int
  ahi : Option Int
  /-- trend slots, of plain tiles that are FRESH or STALE: number of the newest slot, and the slots -/
  trend : Option (Nat × List (Nat × Int × Int × Int))
deriving DecidableEq, Repr

/-- "TENANT nn". -/
def tenantLabel (t : Tenant) : List Nat := txt "TENANT " ++ decimal 2 t.val

/-- LABEL of a tenant in a snapshot; "TENANT nn" without a reading (Table 12.3). DESIGN CHOICE: so does a member of a composite
tile, whose label keeps the form of R500, cut to 7 characters for each member (log 18). -/
def Snap.label (n : Snap) (t : Tenant) : List Nat :=
  match n.readings[t] with
  | some r => labelText r.body
  | none => tenantLabel t

/-- What a tile draws from (R495, R498, Table 12.3). -/
def Snap.face (n : Snap) (d : TileDef) : TileFace :=
  let st := tileState n.readings d
  let al := tileAlarm n.readings d
  let dashes := txt "----"
  match d with
  | .plain t =>
    match n.readings[t] with
    | none => ⟨st, al, tenantLabel t, none, none, dashes, none, none, none⟩
    | some r =>
      let b := r.body
      ⟨st, al, labelText b, some (rdValue b, rdMin b, rdMax b), some (rdMin b, rdMax b),
       valueText (rdValue b) (rdDec b) (rdUnit b),
       if (rdFlags b).testBit 0 then some (rdAlo b) else none,
       if (rdFlags b).testBit 1 then some (rdAhi b) else none,
       if st = .fresh ∨ st = .stale then some (n.uptime / (4000 * max 1 (rdInterval b)), r.trend) else none⟩
  | .composite a b =>
    let label := chDelta :: (n.label a).take 7 ++ [0x2D] ++ (n.label b).take 7
    match n.readings[a], n.readings[b] with
    | some x, some y =>
      let dec := max (rdDec x.body) (rdDec y.body)
      let sa : Int := 10 ^ (dec - rdDec x.body)
      let sb : Int := 10 ^ (dec - rdDec y.body)
      let lo := rdMin x.body * sa - rdMax y.body * sb
      let hi := rdMax x.body * sa - rdMin y.body * sb
      let v := rdValue x.body * sa - rdValue y.body * sb
      ⟨st, al, label, if st = .fresh then some (v, lo, hi) else none, some (lo, hi),
       if st = .fresh then valueText v dec (rdUnit x.body) else dashes, none, none, none⟩
    | _, _ => ⟨st, al, label, none, none, dashes, none, none, none⟩

/-- Scale of the value (R501); `none` when it does not fit at scale 1. -/
def valueScale (w h n : Nat) : Option Nat :=
  ((List.range 8).map (8 - ·)).find? fun s => 8 * s * n + 16 ≤ w && 16 * s + 96 ≤ h

/-- Where a value of a range lies on `n` places. DESIGN CHOICE: between two places the lower one is taken, and a value outside the
range stands at its end, an alarm tick too (Table 12.3, R500; log 18). -/
def placeOn (v lo hi : Int) (n : Nat) : Nat := ((max lo (min hi v) - lo) * n / (hi - lo)).toNat

/-- The slots a trend shows: 24, the last one holding the snapshot (R502). -/
def trendSlots (now : Nat) (l : List (Nat × Int × Int × Int)) : List (Nat × Int × Int × Int) :=
  l.filter fun e => now < e.1 + 24 && e.1 ≤ now

/-! ## The tile's pixels -/

/-- A pixel of a tile of width `w` and height `h`, relative to its top left (Table 12.3, in table order, later elements
over earlier ones). DESIGN CHOICE: a label is cut at (w − 16) / 8 places, under the alarm symbol too, and where the symbol has
no ink its pixels are 0xF over the label (R500; log 18). -/
def TileFace.pixel (f : TileFace) (w h x y : Nat) : BitVec 4 :=
  let shown := f.state = .fresh || f.state = .stale
  let x1 := w - 9
  let slots := match f.trend with
    | some (now, l) => trendSlots now l
    | none => []
  let now := (f.trend.map (·.1)).getD 0
  -- 9, 10: hatches
  if f.state = .stale && 20 ≤ y && (x + y) % 16 ≤ 1 then 0
  else if f.state = .ageUnknown && 20 ≤ y && x % 8 = 4 && y % 8 = 4 then 0
  -- 8: trend
  else if shown && (match f.range with
      | some (lo, hi) =>
        let px := fun (e : Nat × Int × Int × Int) => 8 + (e.1 + 23 - now) * (w - 17) / 23
        let py := fun (e : Nat × Int × Int × Int) => h - 9 - placeOn e.2.1 lo hi 31
        slots.any fun e => (x = px e && y = py e)
          || slots.any fun g => g.1 = e.1 + 1 && px e ≤ x && x ≤ px g && min (py e) (py g) ≤ y && y ≤ max (py e) (py g)
              && (py e = py g || Config.trendLine (px g - px e) ((py g : Int) - py e) (x - px e) ((y : Int) - py e))
      | none => false) then 0
  -- 7: min and max marks
  else if shown && (match f.range with
      | some (lo, hi) =>
        h ≤ y + 48 && y + 44 ≤ h && !slots.isEmpty &&
          (let mark := fun (v : Int) (top : Bool) =>
             let p := 8 + placeOn v lo hi (w - 17)
             p ≤ x + 2 && x ≤ p + 2 && Config.markTriangle top (x + 2 - p) (y + 48 - h)
           mark (slots.foldl (fun m e => min m e.2.2.1) (slots.headD (0, 0, hi, 0)).2.2.1) false
             || mark (slots.foldl (fun m e => max m e.2.2.2) (slots.headD (0, 0, 0, lo)).2.2.2) true)
      | none => false) then 0
  -- 6: alarm ticks
  else if (match f.range with
      | some (lo, hi) =>
        h ≤ y + 64 && y + 45 ≤ h &&
          [f.alo, f.ahi].any fun v => match v with
            | some v => (let p := min (x1 - 1) (8 + placeOn v lo hi (w - 17)); p ≤ x && x ≤ p + 1)
            | none => false
      | none => false) then 0
  -- 5: bar
  else if f.state ≠ .empty && 8 ≤ x && x ≤ x1 && h ≤ y + 60 && y + 49 ≤ h
      && (x = 8 || x = x1 || y + 60 = h || y + 49 = h) then 0
  else if (match f.value with
      | some (v, lo, hi) => 9 ≤ x && x < x1 && x < 9 + placeOn v lo hi (w - 18) && h < y + 60 && y + 49 < h
      | none => false) then 5
  -- 4: value
  else if (match valueScale w h f.text.length with
      | some s => textInk f.text ((w - 8 * s * f.text.length) / 2) 28 s x y
      | none => textInk (List.replicate ((w - 16) / 8) 0x23) ((w - 8 * ((w - 16) / 8)) / 2) 28 1 x y) then 0
  -- 3: alarm symbol
  else if f.alarm && w ≤ x + 24 && x + 24 < w + 16 && 4 ≤ y && y < 20 then
    (if Config.alarmSymbol (x + 24 - w) (y - 4) then 0 else 0xF)
  -- 2: label
  else if textInk (cutText ((w - 16) / 8) f.label) 8 4 1 x y then 0
  -- 1: frame
  else if x < 2 || y < 2 || w ≤ x + 2 || h ≤ y + 2 then 0
  else 0xF

/-! ## The system rows (R504) -/

/-- Their text. -/
def State.systemText (s : State) : List Nat :=
  let (cond, hours) := s.idle.systemRows.getD s.systemFields
  let sep := txt "  "
  txt "NODE " ++ decimal 3 s.node ++ sep ++ txt "BOOT " ++ decimal 1 s.boot.toNat ++ sep
    ++ txt "UP " ++ decimal 1 hours ++ sep
    ++ (match s.fuses.life with
        | .blank => txt "LIFE B" | .configured => txt "LIFE C" | .sealed => txt "LIFE S")
    ++ (if s.fuses.evaluated then sep ++ txt "EVAL" else [])
    ++ (if cond.getLsbD 2 then sep ++ txt "SILENT" else [])
    ++ (if cond.getLsbD 3 then sep ++ txt "LIMP" else [])
    ++ (if cond.getLsbD 4 then sep ++ txt "BOARD" else [])
    ++ (if cond.getLsbD 5 then sep ++ txt "STORE" else [])
    ++ (if cond.getLsbD 6 then sep ++ txt "ENERGY" else [])

/-- The pixel that a render writes at a board place: of tile `k` with its rectangle, or of the system rows under 32. -/
def State.renderPixel (s : State) (snap : Snap) (k : Fin 33) (r : Rect) (x y : Nat) : BitVec 4 :=
  if k = 32 then (if textInk s.systemText (r.x0 + 8) (r.y0 + 8) 1 x y then 0 else 0xF)
  else
    match tileDef s.layout k.val with
    | some d => (snap.face d).pixel r.width r.height (x - r.x0) (y - r.y0)
    | none => 0xF

end Sys2Proof.Machine
end

