-- ==== Sys2Proof/Machine/BusOps.lean ====
section
/-! DEFINITION. The bus channels: filters (Table 4.5), frame buffers (R148, R149), reassembly (R217 to R226), the shelf
(R267 to R269, R490), error states (R155 to R163), silence after a duplicate (R172, R173), and the roll call. -/
namespace Sys2Proof.Machine

/-! ## The shelf -/

/-- Granules of a render's drawn image (R490). -/
def renderGranules (r : Rect) : Nat := (r.area + 127) / 128

/-- Granules kept for renders that wait for theirs (R490). -/
def State.renderReserve (s : State) : Nat :=
  (List.finRange 33).foldl (fun n k =>
    if (s.renders[k]).claiming then max n ((s.tileRect k.val).map renderGranules |>.getD 0) else n) 0

/-- A tenant's claim of `n` granules fits (R268, R269, R490). -/
def State.shelfTakes (s : State) (t : Tenant) (n : Nat) : Bool :=
  s.claims t + n ≤ tenantGranules && s.allClaims + n + s.renderReserve ≤ shelfGranules

/-! ## Acceptance filters (Table 4.5) -/

/-- What a filter says. -/
inductive FilterVerdict where
  | count
  | duplicate
  | rollcall
  | refuse
  | accept (t : Tenant) (isReserved : Bool)
deriving DecidableEq, Repr

/-- R147: the kinds of the reserved class. -/
def reservedKind (k : BitVec 5) : Bool := k = 0x06 || k = 0x07 || k = 0x09

/-- The node's own number as an identifier carries it. -/
def State.own (s : State) : BitVec 7 := BitVec.ofNat 7 s.node

/-- The verdict of the filter list, first match first (R144, Table 4.5). -/
def State.filter (s : State) (i : BitVec 29) : FilterVerdict :=
  if idRoute i = 3 then .count
  else if idRoute i = 2 ∧ idNode i = s.own then .duplicate
  else if idRoute i = 2 ∧ idKind i = kRollcall then .rollcall
  else if idRoute i = 2 then .refuse
  else if idRoute i = 0 ∧ idNode i = s.own then .accept (idTenant i) (reservedKind (idKind i))
  else if idRoute i = 1 then .accept (idTenant i) (reservedKind (idKind i))
  else .refuse

/-! ## Frame buffers (R148) -/

/-- A frame taken into reassembly is one of the reserved class (Table 6.3): a frame that the filters take as ROLLCALL too. -/
def frameReserved (ident : BitVec 29) : Bool := reservedKind (idKind ident) || idKind ident = kRollcall

/-- Frame buffers held of the 16 of the reserved class, and of the shared ones, of a tenant or in all (R148, R687). A
context may hold both: KIND is not in its key (R217). -/
def Channel.reservedBuffers (c : Channel) : Nat := c.ctxs.foldl (fun n x => n + x.ownBuffers) 0
def Channel.sharedBuffers (c : Channel) (of : Option Tenant) : Nat :=
  (c.ctxs.filter fun x => match of with
    | some t => decide (x.key.tenant = t)
    | none => true).foldl (fun n x => n + x.buffers) 0

/-- A frame with letter octets keeps its buffer while the header is not complete (R687), charged to its own class (R148). -/
def Context.keep (x : Context) (ident : BitVec 29) (o : List Byte) : Context :=
  if x.headerDone || o.isEmpty then x
  else if frameReserved ident then { x with ownBuffers := x.ownBuffers + 1 }
  else { x with buffers := x.buffers + 1 }

/-- The buffers are free: the header is complete and the claim is made, or the letter is refused (R687). -/
def Context.freed (x : Context) : Context := { x with headerDone := true, buffers := 0, ownBuffers := 0 }

/-- A buffer is free for a frame; a reserved frame takes one of the 16 only (R148; log 61). -/
def Channel.hasBuffer (c : Channel) (t : Tenant) (isReserved : Bool) : Bool :=
  if isReserved then c.reservedBuffers < 16 else c.sharedBuffers none < 368 && c.sharedBuffers (some t) < 48

/-! ## Channel states -/

/-- Code of a channel state (Table 6.24). -/
def ChanState.code : ChanState → Nat
  | .reset => 0 | .unused => 1 | .held => 2 | .matching => 3 | .silent => 4 | .integrating => 5 | .errorActive => 6
  | .errorPassive => 7 | .busOff => 8 | .dead => 9 | .laidUp => 10 | .offBus => 11 | .watchListener => 12
  | .unpowered => 13

/-- States in which a channel may transmit. -/
def ChanState.transmits : ChanState → Bool
  | .errorActive | .errorPassive => true
  | .reset | .unused | .held | .matching | .silent | .integrating | .busOff | .dead | .laidUp | .offBus
  | .watchListener | .unpowered => false

/-- States in which a channel takes frames in. -/
def ChanState.receives : ChanState → Bool
  | .errorActive | .errorPassive | .silent | .matching => true
  | .reset | .unused | .held | .integrating | .busOff | .dead | .laidUp | .offBus | .watchListener | .unpowered => false

/-- States in which a channel listens (R158). DESIGN CHOICE: one that stands off the bus does not, so it never becomes dead
(log 61). -/
def ChanState.listens : ChanState → Bool
  | .errorActive | .errorPassive | .silent | .matching | .integrating | .busOff | .watchListener => true
  | .reset | .unused | .held | .dead | .laidUp | .offBus | .unpowered => false

/-- A channel is in its roll-call window (R171). -/
def RollCall.inWindow (r : RollCall) : Bool := r.delayEnd.isSome || r.letter.isSome || r.windowEnd.isSome

/-- A roll call is cut off; what is loaded of its ROLLCALL stays in its buffers (R163, R568; log 35). -/
def Channel.cutRoll (c : Channel) : Channel :=
  { c with roll := { c.roll with delayEnd := none, letter := none, windowEnd := none, errors := 0 } }

/-- The notice of R156, with the state and counts as they stand. -/
def State.chanNotice (s : State) (c : Chan) : State :=
  let x := s.chan c
  s.notice (srcChannel c) (x.st.code + 256 * min x.tec 255 + 65536 * min x.recErr 255)

/-- A channel enters a state that R156 names; the return is owed. -/
def State.chanDown (s : State) (c : Chan) (st : ChanState) : State :=
  (s.setChan c { s.chan c with st := st, returning := true, sending := none }).chanNotice c

/-- A copy of a NOTICE has still to go out. -/
def Flying.left (f : Flying) : Bool := f.onA || f.onB || f.port.isSome

/-- NOTICE letters lose a copy that goes unsent. The sources of those that no channel has sent yet are due again (R554;
log 19). -/
def Desk.lost (d : Desk) (onA onB : Bool) (gone : Nat → Bool) : Desk :=
  let hit := fun (f : Flying) => gone f.letter && ((f.onA && onA) || (f.onB && onB))
  let flying := d.flying.map fun f => if hit f then { f with onA := f.onA && !onA, onB := f.onB && !onB } else f
  { d with flying := flying.filter (·.left)
           sources := Vector.ofFn fun i =>
             if d.flying.any (fun f => hit f && !f.sent && f.source = i) then { d.sources[i] with inHand := false }
             else d.sources[i] }

/-- The NOTICE letters among the buffers of a channel, loaded or still to be loaded. -/
def Channel.noticeLetters (c : Channel) : List Nat :=
  (c.bufs.filter fun b => idKind b.ident = kNotice).map (·.letter)
    ++ (c.loading.filter fun x => idKind x.ident = kNotice).map (·.letter)

/-- A channel frees its transmit buffers without sending them (R162). -/
def State.freeTx (s : State) (c : Chan) : State :=
  let x := s.chan c
  let gone := x.noticeLetters
  let s := s.setChan c { x with bufs := [], loading := [], sending := none }
  { s with desk := s.desk.lost (c = .a) (c = .b) gone.contains }

/-- Listen-and-match has still to find a rate (R133, R135). -/
def State.unmatched (s : State) (c : Chan) : Bool := s.listenMatch && (s.chan c).matched.isNone

/-- A channel that leaves dead, lay-up or off-bus: it integrates, or matches from 1,000 kbit/s on (log 61), or listens in
WATCH; `settle`: standby has just been negated (R165). -/
def State.rejoin (s : State) (c : Chan) (settle : Bool) : State :=
  let x := s.chan c
  let st := if s.mode = .watch then ChanState.watchListener
            else if s.unmatched c then .matching
            else .integrating
  s.setChan c { x with st := st, settling := settle || x.settling, tryRate := if st = .matching then 3 else x.tryRate
                       trySince := s.clock.uptime, goodFrames := 0, exception := false }

/-- An entry to bus-off or dead is counted; the third within 60 s lays the channel up (R159, R160). -/
def State.downEntry (s : State) (c : Chan) : State :=
  let x := s.chan c
  let entries := x.entries.filter (fun e => s.clock.uptime ≤ e + 60000) ++ [s.clock.uptime]
  if entries.length < 3 then s.setChan c { x with busOffs := bump16 x.busOffs, entries := entries }
  else
    let s := s.setChan c { x with busOffs := bump16 x.busOffs, entries := [], layUps := bump16 x.layUps, shut := true
                                  layUpEnd := some (s.clock.uptime + 15000 * s.staleMult), settling := false }
    (s.chanDown c .laidUp).freeTx c

/-- TEC exceeds 255: bus-off, with its buffers kept (R155, R163). -/
def State.enterBusOff (s : State) (c : Chan) : State :=
  ((s.setChan c (s.chan c).cutRoll).chanDown c .busOff).downEntry c

/-- CRX stuck dominant: dead (R158, R162). -/
def State.enterDead (s : State) (c : Chan) : State :=
  let x := { (s.chan c).cutRoll with layUpEnd := none, settling := false, shut := true }
  (((s.setChan c x).chanDown c .dead).freeTx c).downEntry c

/-- The counts have changed from `tec`, `recErr` to what they are: error state and notices (R155, R156). -/
def State.errorState (s : State) (c : Chan) (tec recErr : Nat) : State :=
  let x := s.chan c
  if 255 < x.tec then s.enterBusOff c
  else
    let s := if (tec < 96 ∧ 96 ≤ x.tec) ∨ (recErr < 96 ∧ 96 ≤ x.recErr) then s.chanNotice c else s
    if 128 ≤ x.tec ∨ 128 ≤ x.recErr then
      (if x.st = .errorActive then (s.setChan c { s.chan c with st := .errorPassive, returning := true }).chanNotice c
       else s)
    else if x.st = .errorPassive then
      (s.setChan c { s.chan c with st := .errorActive, returning := false }).chanNotice c
    else s

/-- REC after a correct reception (R155; log 10). -/
def Channel.recDown (c : Channel) : Channel :=
  if c.recErr = 0 then c
  else if c.recErr ≤ 127 then { c with recErr := c.recErr - 1 }
  else { c with recErr := 119 + Config.recFall c.falls % 9, falls := c.falls + 1 }

/-- The next rate of listen-and-match: 1,000, 500, 250, 125 kbit/s and again (R133, R134). -/
def Channel.nextRate (c : Channel) (now : Nat) : Channel :=
  { c with tryRate := ⟨(c.tryRate.val + 3) % 4, Nat.mod_lt _ (by decide)⟩, trySince := now, goodFrames := 0 }

/-! ## COLD_START and what follows it -/

/-- Cause code of a boot (Table 13.1). -/
def causeCode : BootCause → Nat
  | .powerUp => 0
  | .reset => 1
  | .doze => 2
  | .collapse => 3

/-- A channel holds COLD_START back no longer: its roll call has ended, it is not in use, or it stands off the bus. -/
def State.rollOver (s : State) (c : Chan) : Bool :=
  !(s.inUse c) || (s.chan c).roll.rolled || (s.chan c).st = .offBus

/-- The roll call has ended on every channel in use, or no channel transmits (Table 13.1; log 61). -/
def State.rollsOver (s : State) : Bool :=
  s.silentForBoot || s.setup.unsorted || s.fuses.fault || (s.rollOver .a && s.rollOver .b)

/-- Raises COLD_START once per boot and then sends the TORN receipts (R477). -/
def State.announce (s : State) : State :=
  if !s.start.announced && s.start.quickChecked && s.rollsOver then
    let due := s.desks.tornDue
    let s := { s with start := { s.start with announced := true }, desks := { s.desks with tornDue := [] } }
    let s := s.notice srcColdStart (causeCode s.start.cause)
    due.foldl (fun s x => s.send x.1.inlet x.1.ident x.1.number kReceipt x.2 false none none) s
  else s

/-! ## A duplicate (R172, R173) -/

/-- One channel falls silent: its buffers are freed; a channel that is bus-off, dead, laid up, off-bus or listening in
WATCH becomes Silent at its return; one that integrates at once, and a waking frame that it still holds is never passed on
(R173, R593, R688; log 20). While the node shuts down, a frame in
progress ends first, and the channel stands by then (Table 11.5; log 27). -/
def State.silenceChan (s : State) (c : Chan) : State :=
  if s.shutting && (s.chan c).sending.isSome then s
  else
  let x := (s.chan c).cutRoll
  let st := match x.st with
    | .matching | .integrating | .errorActive | .errorPassive => ChanState.silent
    | .reset => .reset | .unused => .unused | .held => .held | .silent => .silent | .busOff => .busOff | .dead => .dead
    | .laidUp => .laidUp | .offBus => .offBus | .watchListener => .watchListener | .unpowered => .unpowered
  (s.setChan c { x with st := st, exception := false }).freeTx c

/-- The node has found a duplicate on a channel (R173, R175). -/
def State.duplicateFound (s : State) (c : Chan) : State :=
  if s.duplicate || s.listenOnly then s
  else
    let s := s.setChan c { s.chan c with foundDup := true }
    let s := { s with duplicate := true }
    let s := ((s.silenceChan .a).silenceChan .b).notice srcDuplicate (match c with | .a => 1 | .b => 2)
    let notices := (s.desks.out.filter (·.kind = kNotice)).map (·.id)
    { s with desks := s.desks.discardBus s.desks.out, desk := s.desk.lost true true notices.contains }.announce

/-! ## Reassembly -/

/-- R253: dead at order 1 of Table 6.5; a ROLLCALL through filter 2 is not. -/
def deadKind (k : BitVec 5) : Bool := (Kind.ofCode k).isNone

/-- A letter refused before it has a docket: with fewer than four octets it is a dead letter (R226). -/
def State.refuseOctets (s : State) (i : Inlet) (ident : BitVec 29) (o : List Byte) (v : Verdict) : State :=
  if o.length < 4 then s.deadLetter i else s.refuse ⟨i, ident, o⟩ v

/-- The refusal of a bus letter in a context; a ROLLCALL gets none (R252). -/
def State.refuseCtx (s : State) (c : Chan) (x : Context) (v : Verdict) : State :=
  if idKind x.ident = kRollcall then s else s.refuseOctets (.channel c) x.ident x.octets v

/-- A context of a key that is still open. -/
def Channel.openCtx (c : Channel) (k : CtxKey) : Option Context := c.ctxs.find? fun x => x.key = k && !x.complete

/-- The open context of a key put in place of the one it holds, or removed. -/
def Channel.putCtx (c : Channel) (x : Context) : Channel :=
  { c with ctxs := c.ctxs.map fun y => if y.key = x.key && !y.complete then x else y }
def Channel.dropCtx (c : Channel) (k : CtxKey) : Channel :=
  { c with ctxs := c.ctxs.filter fun y => !(y.key = k && !y.complete) }

/-- A context is free for a letter (R218, R219). -/
def Channel.hasContext (c : Channel) (t : Tenant) (isReserved : Bool) : Bool :=
  if isReserved then (c.ctxs.filter (·.isReserved)).length < 16
  else (c.ctxs.filter (!·.isReserved)).length < 240
    && (c.ctxs.filter fun x => !x.isReserved && x.key.tenant = t).length < 32

/-- Orders 3 to 5 of Table 6.5, once eight octets have arrived (R224). -/
def State.headerCheck (s : State) (c : Chan) (x : Context) : State :=
  let put := fun (s : State) (x : Context) => s.setChan c ((s.chan c).putCtx x)
  if x.headerDone || x.octets.length < headerLen then put s x
  else
    match Kind.ofCode (idKind x.ident) with
    | none => put s x.freed
    | some k =>
      let refused := fun (s : State) (v : Verdict) =>
        (put s { x.freed with dropping := true }).refuseCtx c x v
      match headerFault k x.octets with
      | some v => refused s v
      | none =>
        let n := granules (hLetterLen x.octets + 4)
        if s.shelfTakes x.key.tenant n then put s { x.freed with claim := n }
        else refused (s.notice srcShelfFull x.key.tenant.val) ⟨stQuota, 2⟩

/-- The LAST fragment: the letter completes, or fails, or has failed (R222, R224, R225). Octets past the letter's end in
the last fragment are padding (R214); `before`: how many octets earlier fragments brought. -/
def State.lastFragment (s : State) (c : Chan) (k : CtxKey) (before : Nat) : State :=
  match (s.chan c).openCtx k with
  | none => s
  | some x =>
    let s := s.setChan c ((s.chan c).dropCtx k)
    if x.dropping then s
    else if x.lost then s.refuseCtx c x (malformed 1)
    else
      let total := hLetterLen x.octets + 4
      let o := if x.headerDone ∧ before ≤ total then x.octets.take total else x.octets
      s.setChan c { s.chan c with ctxs := (s.chan c).ctxs ++ [{ x with octets := o, complete := true }] }

/-- A later fragment of an open context (R222, R223). -/
def State.nextFragment (s : State) (c : Chan) (x : Context) (ident : BitVec 29) (seq : BitVec 6) (isLast : Bool)
    (o : List Byte) : State :=
  let x := { x with lastAt := s.clock.uptime }
  let s :=
    if x.lost || x.dropping then s.setChan c ((s.chan c).putCtx x)
    else if seq ≠ x.nextSeq then s.setChan c ((s.chan c).putCtx { x with lost := true })
    else s.headerCheck c { x.keep ident o with octets := x.octets ++ o, nextSeq := x.nextSeq + 1 }
  if isLast then s.lastFragment c x.key x.octets.length else s

/-- A FIRST fragment (R219, R221). -/
def State.firstFragment (s : State) (c : Chan) (ident : BitVec 29) (seq : BitVec 6) (isLast : Bool) (o : List Byte) :
    State :=
  let key := idKey ident
  let isReserved := frameReserved ident
  let s := match (s.chan c).openCtx key with
    | none => s
    | some x =>
      let s := s.setChan c ((s.chan c).dropCtx key)
      if x.dropping then s else s.refuseCtx c x (malformed (if x.lost then 1 else 10))
  let x := Context.keep
    { key := key, ident := ident, isReserved := isReserved, octets := o, nextSeq := 1, lost := seq ≠ 0,
      dropping := false, headerDone := false, claim := 0, buffers := 0, ownBuffers := 0,
      lastAt := s.clock.uptime, complete := false } ident o
  if (s.chan c).hasContext key.tenant isReserved then
    let s := s.setChan c { s.chan c with ctxs := (s.chan c).ctxs ++ [x] }
    let s := if x.lost then s else s.headerCheck c x
    if isLast then s.lastFragment c key 0 else s
  else s.refuseCtx c x ⟨stQuota, 3⟩

/-- One orphan more (R220). -/
def State.orphan (s : State) : State := { s with desks := { s.desks with orphans := bump16 s.desks.orphans } }

/-- A fragment accepted by the filters moves into reassembly (R213, R217 to R226). A frame of length 0 with a dead KIND is
neither an orphan nor a dead letter (R253 before R220; log 61). -/
def State.fragment (s : State) (c : Chan) (ident : BitVec 29) (roll : Bool) (data : List Byte) : State :=
  let ctl := octet data 0
  let first := ctl.getLsbD 7
  let seq : BitVec 6 := ctl.setWidth 6
  if !roll && deadKind (idKind ident) then (if !data.isEmpty && first then s.deadLetter (.channel c) else s)
  else if data.isEmpty then s.orphan
  else if first then s.firstFragment c ident seq (ctl.getLsbD 6) (data.drop 1)
  else
    match (s.chan c).openCtx (idKey ident) with
    | none => s.orphan
    | some x => s.nextFragment c x ident seq (ctl.getLsbD 6) (data.drop 1)

/-- R149: no buffer is free: the frame is counted and its context marked; the loss counts as an arrival (R223). DESIGN
CHOICE: a first fragment of a dead KIND is counted as the overrun alone, and not as a dead letter (R253; log 61). -/
def State.overrun (s : State) (c : Chan) (ident : BitVec 29) (roll : Bool) : State :=
  let x := s.chan c
  let s := s.setChan c { x with overruns := bump16 x.overruns }
  let s := s.notice srcOverrun ((idTenant ident).val + chanBit c)
  if !roll && deadKind (idKind ident) then s
  else
    match (s.chan c).openCtx (idKey ident) with
    | none => s
    | some y => s.setChan c ((s.chan c).putCtx { y with lost := true, lastAt := s.clock.uptime })

/-- A frame that filter 1 takes and the node did not send (R172). DESIGN CHOICE: the nonce of a foreign ROLLCALL is gathered
from a FIRST fragment on until it is whole, with no test of SEQ, LAST or CHECK, and a later fragment alone tells nothing
(log 61). -/
def State.evidence (s : State) (c : Chan) (ident : BitVec 29) (data : List Byte) : State :=
  if idKind ident ≠ kRollcall then s.duplicateFound c
  else
    let x := s.chan c
    let so := if (octet data 0).getLsbD 7 then some (data.drop 1) else x.rollRx.map (· ++ data.drop 1)
    match so with
    | none => s
    | some o =>
      if o.length < 12 then s.setChan c { x with rollRx := some o }
      else
        let s := s.setChan c { x with rollRx := none }
        if x.roll.nonce = some (BitVec.ofNat 32 (leNat o 8 4)) then s else s.duplicateFound c

/-- An extended data frame at the filters (Table 4.5). -/
def State.takeFrame (s : State) (c : Chan) (f : Frame) : State :=
  match s.filter f.ident with
  | .count => if !f.data.isEmpty && (octet f.data 0).getLsbD 7 then s.deadLetter (.channel c) else s
  | .duplicate => if f.own then s else s.evidence c f.ident f.data
  | .rollcall =>
    if (s.chan c).hasBuffer 0 true then s.fragment c f.ident true f.data else s.overrun c f.ident true
  | .refuse => s
  | .accept t isReserved =>
    if (s.chan c).hasBuffer t isReserved then s.fragment c f.ident false f.data else s.overrun c f.ident false

/-- A correct frame by its format (R146, Table 4.8). -/
def State.sortFrame (s : State) (c : Chan) (f : Frame) : State :=
  let x := s.chan c
  if f.remote then s.setChan c { x with remote := bump16 x.remote }
  else if !f.ext then s.setChan c { x with base := bump16 x.base }
  else s.takeFrame c f

/-- R127: an FD frame under a classical code. -/
def State.protocolException (s : State) (c : Chan) : State :=
  let x := s.chan c
  let x := { x with protoExc := bump16 x.protoExc }
  let x := match x.st with
    | .matching => x.nextRate s.clock.uptime
    | .errorActive | .errorPassive | .silent => { x with st := .integrating, exception := true, sending := none }
    | .reset | .unused | .held | .integrating | .busOff | .dead | .laidUp | .offBus | .watchListener | .unpowered => x
  (s.setChan c x).notice srcProtocolException (chanBit c)

/-- R135: a correct classical frame under listen-and-match. -/
def State.matchFrame (s : State) (c : Chan) : State :=
  let x := s.chan c
  if x.st = .matching then
    (if 1 ≤ x.goodFrames then
       (s.setChan c { x with st := .integrating, matched := some x.tryRate, goodFrames := 0, settling := false }).notice
         srcRateMatched (x.tryRate.val + chanBit c)
     else s.setChan c { x with goodFrames := x.goodFrames + 1 })
  else s

/-! ## Completion of a bus letter (orders 7 to 9 of Table 6.5) -/

/-- The first letter that has completed and has not been judged. -/
def Channel.completeCtx (c : Channel) : Option Context := c.ctxs.find? (·.complete)

/-- That context leaves. -/
def Channel.dropFirst (p : Context → Bool) : List Context → List Context
  | [] => []
  | x :: r => if p x then r else x :: Channel.dropFirst p r

/-- Length, CHECK, route, body, duplicate, then the docket (R229, R684, R138). A copy discarded as a duplicate enters no
record itself (R139; log 61). -/
def State.judgeBus (s : State) (c : Chan) (x : Context) : State :=
  let o := x.octets
  let total := hLetterLen o + 4
  let inlet := Inlet.channel c
  if idKind x.ident = kRollcall then s
  else if o.length < headerLen ∨ o.length ≠ total then s.refuseOctets inlet x.ident o (malformed 2)
  else
    let check := leNat o (total - 4) 4
    let letter := o.take (total - 4)
    let l : Letter := ⟨inlet, x.ident, letter⟩
    if check ≠ (crc32 letter).toNat then s.refuse l (malformed 3)
    else
      match l.kind with
      | none => s
      | some k =>
        match s.bodyFault k (idRoute x.ident) l.body with
        | some r => s.refuse l (malformed r)
        | none =>
          let r : DupRecord := ⟨x.ident, BitVec.ofNat 16 l.number, BitVec.ofNat 32 check, s.clock.uptime⟩
          if s.busMode = 2 ∧ (s.chan (Chan.other c)).hasDuplicate r = true then
            s.setChan c { s.chan c with dups := bump16 (s.chan c).dups }
          else
            let s := if s.busMode = 2 then s.setChan c ((s.chan c).record r) else s
            s.grantDocket l k x.claim

end Sys2Proof.Machine
end

