-- ==== Sys2Proof/Machine/StatusOps.lean ====
section
/-! DEFINITION. The STATUS body (Table 6.23, R251), and the letters of a courier port: envelopes (Table 5.2), the letter
path from a port (R186 to R194, R691), and the freeing of outbound slots (R200, R201, R530). -/
namespace Sys2Proof.Machine

/-- STEPPING of C2 (Table 6.22). -/
def stepping : Nat := 0xC2

/-- The channel part of a STATUS body. -/
def Channel.statusPart (c : Channel) : List Byte :=
  leBytes c.st.code 1
    ++ leBytes (match c.matched with | some m => m.val | none => 0xFF) 1
    ++ leBytes (min 65535 c.tec) 2 ++ leBytes (min 65535 c.recErr) 2 ++ leBytes c.base 2 ++ leBytes c.remote 2
    ++ leBytes c.protoExc 2 ++ leBytes c.overruns 2 ++ leBytes c.dups 2 ++ leBytes c.busOffs 2 ++ leBytes c.layUps 2

/-- The courier part of a STATUS body. -/
def Courier.statusPart (p : Courier) : List Byte :=
  leBytes p.letters 2 ++ leBytes p.torn 2 ++ leBytes p.damaged 2 ++ leBytes p.badSync 2 ++ leBytes p.shelfRefusals 2
    ++ leBytes p.outTears 2

/-- NODEID (R80, Table 6.23). -/
def State.nodeId (s : State) : Nat :=
  if s.setup.known 0 && s.setup.known 1 then s.node + (if s.listenOnly then 128 else 0) else 0xFF

/-- LIFE (Table 6.23). -/
def State.lifeOctet (s : State) : Nat :=
  (match s.fuses.life with | .blank => 0 | .configured => 1 | .sealed => 2)
    + bitOf 2 s.fuses.evaluated + bitOf 3 s.fuses.tlock

/-- STRAPS, LOGIC and RAWCOUNTS. -/
def Setup.strapOctets (u : Setup) : List Byte :=
  u.codes.toList.map fun c => match c with
    | some c => BitVec.ofNat 8 c.val
    | none => 0xFF
def Setup.logicOctet (u : Setup) : Nat := bitOf 0 u.hvsrc + bitOf 1 u.cpmode + bitOf 2 u.refsel + bitOf 3 u.fuseen
def Setup.rawOctets (u : Setup) : List Byte :=
  u.raw.toList.flatMap fun r => r.toList.flatMap fun n => leBytes n.toNat 2

/-- Bytes 0x00 to 0x0F; the short form has CONDITION and MODE at 0x00 (R251). -/
def State.statusHead (s : State) (isShort : Bool) : List Byte :=
  s.postmark ++ leBytes stepping 1 ++ leBytes s.nodeId 1 ++ leBytes s.lifeOctet 1
    ++ leBytes (if isShort then 0 else s.condition.toNat) 1
    ++ leBytes (if isShort || s.mode ≠ .quiet then 0 else 1) 1

/-- The STATUS body. -/
def State.statusBody (s : State) (isShort : Bool) : List Byte :=
  if isShort then s.statusHead true
  else
    s.statusHead false ++ s.setup.strapOctets ++ leBytes s.setup.logicOctet 1 ++ leBytes 0 2
      ++ leBytes s.fuses.tfail.toNat 4 ++ leBytes s.fuses.dfail.toNat 8 ++ leBytes s.fuses.kfail.toNat 1
      ++ leBytes s.setup.vfail.toNat 1 ++ leBytes 0 2 ++ s.chanA.statusPart ++ s.chanB.statusPart
      ++ s.portA.statusPart ++ s.portB.statusPart ++ leBytes s.desks.dead 2 ++ leBytes s.desks.orphans 2
      ++ leBytes 0 4 ++ s.setup.rawOctets

/-! ## Envelopes -/

/-- The envelope of an outbound letter (Table 5.2, R199). -/
def State.envelope (s : State) (o : OutLetter) : List Byte :=
  let e := leBytes 0x5A 1 ++ leBytes 0 3 ++ leBytes (s.outIdent o).toNat 4 ++ leBytes o.octets.length 4 ++ o.octets
  e ++ leBytes (crc32 e).toNat 4

/-- The largest courier letter (R192). -/
def courierMax : Nat := 6291494

/-- The letter in the shifter leaves its slot (R200). -/
def Courier.dropSlot (p : Courier) (id : Nat) : Courier :=
  { p with receipts := p.receipts.filter (·.id ≠ id), generals := p.generals.filter (·.id ≠ id) }

/-- CPx_ATTN# is asserted (R202), or a fuse-mode response waits (Table 3.8). -/
def State.attention (s : State) (p : Port) : Bool :=
  let x := s.port p
  if s.setup.fuseen then p = .a && x.live && s.fuses.response.isSome
  else x.live && (x.receipts ++ x.generals).any fun o => x.shifting ≠ some o.id

/-- The last frame of a NOTICE has been sent on a channel, or its slot on a port freed: COUNT is subtracted once (R530).
-/
def Desk.delivered (d : Desk) (letter : Nat) (onA onB : Bool) (port : Option Port) : Desk :=
  let gone := fun (f : Flying) =>
    { f with onA := f.onA && !onA, onB := f.onB && !onB, port := if port.isSome then none else f.port, sent := true }
  let flying := (d.flying.map fun f => if f.letter = letter then gone f else f).filter (·.left)
  match d.flying.find? (·.letter = letter) with
  | none => d
  | some f =>
    let x := d.sources[f.source]
    { d with flying := flying
             sources := if f.sent then d.sources
                        else d.sources.set f.source { x with counter := x.counter - f.count } }

/-- COURIER_FAULT with a row of Table 5.4. -/
def State.courierFault (s : State) (p : Port) (row : Nat) : State :=
  s.notice srcCourierFault (row + (match p with | .a => 0 | .b => 256))

/-- The ports where letters are only looked at for an ENQUIRY (R691). -/
def State.portHeld (s : State) (p : Port) : Bool := s.setup.unsorted || s.fuses.fault || (s.bound p).isNone

/-- The ENQUIRY that R691 answers. -/
def enquiryOk (ident : BitVec 29) (o : List Byte) : Bool :=
  idRoute ident = 0 && Kind.ofCode (idKind ident) = some .enquiry && 8 ≤ o.length && (headerFault .enquiry o).isNone
    && hBodyLen o = 0 && o.length = hLetterLen o

/-- A STATUS that answers an ENQUIRY without a docket (R80, R89, R121, R120). DESIGN CHOICE: where R80 asks for the raw
counts and R120 or R121 for the short form, the short form goes out, and UNSEALED_ENQUIRY is raised for every ENQUIRY so
answered, sealed or not (log 74). -/
def State.portStatus (s : State) (l : Letter) : State :=
  let isShort := s.fuses.fault || (s.fuses.evaluated && !l.isSealed)
  let s := s.noticeIf isShort srcUnsealedEnquiry (inletCode l.inlet)
  s.send l.inlet l.ident l.number kStatus (s.statusBody isShort) isShort none none

/-- A letter is handed over under R194: it is counted (Table 5.4) and lights icon 8 (Table 12.6). -/
def State.handedOver (s : State) (p : Port) : State :=
  let x := s.port p
  let s := s.setPort p { x with letters := bump16 x.letters }
  { s with desks := { s.desks with lastCourier := some s.clock.uptime } }

/-- A sound envelope's letter from order 1 of Table 6.5 on (R186, R194; `claim`: granules, `refused`: R193). DESIGN CHOICE: an
ENQUIRY answered on a port that takes no letters (R691) is not handed over: it is not in Letters and lights no icon 8
(R205; log 76). -/
def State.courierLetter (s : State) (p : Port) (ident : BitVec 29) (o : List Byte) (claim : Nat) (refused : Bool) :
    State :=
  let inlet := Inlet.courier p
  let l : Letter := ⟨inlet, ident, o⟩
  if s.portHeld p then (if enquiryOk ident o then s.portStatus l else s.deadLetter inlet)
  else if 2 ≤ (idRoute ident).toNat then s.deadLetter inlet
  else
    let s := if refused then s else s.handedOver p
    match l.kind with
    | none => s.deadLetter inlet
    | some k =>
      if o.length < headerLen then s.refuseOctets inlet ident o (if refused then ⟨stQuota, 2⟩ else malformed 2)
      else
        match headerFault k o with
        | some v => s.refuse l v
        | none =>
          if refused then s.refuse l ⟨stQuota, 2⟩
          else if o.length ≠ hLetterLen o then s.refuse l (malformed 2)
          else
            match s.bodyFault k (idRoute ident) l.body with
            | some r => s.refuse l (malformed r)
            | none => s.grantDocket l k claim

/-- The inbound envelope at CS# rise (R183, R191, R192); a node that shuts down hands no letter over (R461). DESIGN CHOICE: a
transaction that ends before its SYNC octet counts nothing (log 76). `rest`: the SI octets after COURIER_LENGTH. -/
def State.courierRise (s : State) (p : Port) (rx : RxPhase) (rest : List Byte) (tie : Bool) : State :=
  let torn := fun (s : State) =>
    let x := s.port p
    (s.setPort p { x with torn := bump16 x.torn }).courierFault p 2
  match rx with
  | .idle | .fallen | .ignoring => s
  | .synced => torn s
  | .lengthKnown hdr claim refused =>
    let h := hdr.toList
    let len := leNat h 7 4
    let word := leNat h 3 4
    if rest.length < len + 4 then torn s
    else
      let letter := rest.take len
      let crc := (crc32 ((0xA5 : Byte) :: h ++ letter)).toNat
      if leNat rest len 4 ≠ crc || !zeros h 0 3 || 2 ^ 29 ≤ word || courierMax < len then
        let x := s.port p
        (s.setPort p { x with damaged := bump16 x.damaged }).courierFault p 3
      else if s.shutting then s
      else (s.newCycle tie).courierLetter p (BitVec.ofNat 29 word) letter claim refused

end Sys2Proof.Machine
end

