-- ==== Sys2Proof/Machine/RoundOps.lean ====
section
/-! DEFINITION. Rounds: the drive of a pixel (R405, R411, R414, R415, R420, R425), write-back and torn booking (R412, R413,
R424, R471), settling blocks (R417 to R419), and words that cannot be corrected (Table 15.3). -/
namespace Sys2Proof.Machine

/-! ## The drive of a round -/

/-- What fixes the drive of a round's pixels. -/
structure Round where
  set : SetInForce
  parcel : List Byte
  mode : Nat
  /-- every pixel takes o = n = its shown value (R420) -/
  settling : Bool
  modeFrames : Nat
  tailFrames : Nat
  /-- board width and height -/
  size : Nat × Nat
  temps : Rotation
  spoilt : List (Nat × Nat × List Nat)
  kept : List (Nat × Nat × Nat × Nat)
  decided : List (Nat × Nat × Int)
deriving DecidableEq, Repr

/-- The pixel's band (R404, R405, R409). -/
def Round.band (r : Round) (x y : Nat) : Nat :=
  setBandNear r.set r.parcel (pixelTemp r.size.1 r.size.2 r.temps x y)

/-- Old and new value that a pixel had before its plane word was lost in mid-round (Table 15.3). -/
def Round.keptOf (r : Round) (x y : Nat) : Option (Nat × Nat) :=
  (r.kept.find? fun e => e.1 = x && e.2.1 = y).map (·.2.2)

/-- Old and new value (R420, R425): those that its frames were driven by (R412). -/
def Round.old (r : Round) (s : Store) (x y : Nat) : Nat := match r.keptOf x y with
  | some v => v.1
  | none => (s.pixel shownBase x y).toNat
def Round.new (r : Round) (s : Store) (x y : Nat) : Nat := match r.keptOf x y with
  | some v => v.2
  | none => (s.pixel (if r.settling then shownBase else targetBase) x y).toNat

/-- net_m(o, n, b) (R413). -/
def Round.modeNet (r : Round) (s : Store) (x y : Nat) : Int :=
  (List.range r.modeFrames).foldl (fun a i =>
    a + codeDrive (setCode r.set r.parcel r.mode (r.band x y) (r.old s x y) (r.new s x y) (i + 1))) 0

/-- The ledger that the tail was decided on. -/
def Round.ledger (r : Round) (s : Store) (x y : Nat) : Int :=
  match r.decided.find? (fun e => e.1 = x && e.2.1 = y) with
  | some e => e.2.2
  | none => s.ledger x y

/-- The tail of a projected ledger (R414): `true` for the P-tail. -/
def tailOf (p : Int) : Option Bool :=
  if 48 ≤ p then some false else if p ≤ -48 then some true else none

/-- The tail of a pixel (R414). -/
def Round.tail (r : Round) (s : Store) (x y : Nat) : Option Bool := tailOf (r.ledger s x y + r.modeNet s x y)

/-- The code of frame `f`, mode and tail frames counted together; 0b00 where the code's word was lost (Table 15.3). -/
def Round.code (r : Round) (s : Store) (x y f : Nat) : BitVec 2 :=
  let b := r.band x y
  let o := r.old s x y
  let n := r.new s x y
  let lost := fun (tail : Option Bool) (g : Nat) =>
    match setCodeWord r.set r.parcel r.mode b o n tail g with
    | some w => r.spoilt.any fun e => e.1 = w && e.2.1 ≤ y && e.2.2.getD (y - e.2.1) 0 + 1 = f
    | none => false
  if f = 0 then 0
  else if f ≤ r.modeFrames then
    (if lost none f then 0 else setCode r.set r.parcel r.mode b o n f)
  else if f ≤ r.modeFrames + r.tailFrames then
    match r.tail s x y with
    | none => 0
    | some pos =>
      let g := f - r.modeFrames
      if lost (some pos) g then 0 else setTailCode r.set r.parcel b n pos g
  else 0

/-- Net drive of frames 1 to `k` (R411). -/
def Round.netTo (r : Round) (s : Store) (x y k : Nat) : Int :=
  (List.range k).foldl (fun a i => a + codeDrive (r.code s x y (i + 1))) 0

/-- Some pixel of the rectangle that can be driven receives a tail (R415). -/
def Round.anyTail (r : Round) (s : Store) (rect : Rect) : Bool :=
  rect.pixels.any fun p => !(s.frozen p.1 p.2) && (r.tail s p.1 p.2).isSome

/-! ## Write-back and booking -/

/-- The ledger octets of one row. DESIGN CHOICE: a pixel that its retired plane page has frozen in mid-round is booked none of
the frames that it had before, though its ledger page can be written (R424, Table 15.4; log 79). -/
def Store.ledgerRow (s : Store) (rect : Rect) (y : Nat) (v : Nat → Nat → Int) : Nat × List Byte :=
  (ledgerBase + y * 4096 + rect.x0,
   (List.range rect.width).map fun i =>
     let x := rect.x0 + i
     if s.frozen x y then s.read (ledgerBase + y * 4096 + x) else BitVec.ofInt 8 (saturateLedger (v x y)))

/-- A pixel's ledger advanced by the net drive of so many frames, before it saturates. -/
def Store.booked (s : Store) (r : Round) (frames : Nat → Nat → Nat) (x y : Nat) : Int :=
  s.ledger x y + r.netTo s x y (frames x y)

/-- The ledger advanced by the net drive of `frames x y` frames of each pixel (R412, R424), and how many pixels saturated
(R413). -/
def Store.book (s : Store) (r : Round) (rect : Rect) (frames : Nat → Nat → Nat) : Store × Nat :=
  let v := s.booked r frames
  let beyond := (rect.pixels.filter fun p => !(s.frozen p.1 p.2) && decide (saturateLedger (v p.1 p.2) ≠ v p.1 p.2)).length
  (s.put (rect.rows.map fun y => s.ledgerRow rect y v), beyond)

/-- The write-back of a round: the ledger, and the shown plane takes the target values unless it settles (R412, R420,
R425). -/
def Store.writeBack (s : Store) (r : Round) (rect : Rect) (frames : Nat → Nat → Nat) : Store × Nat :=
  let (s1, beyond) := s.book r rect frames
  (if r.settling then s1 else s1.put (s1.planeWrites shownBase rect fun x y => s1.pixel targetBase x y), beyond)

/-- LEDGER_SATURATED (R413). -/
def State.saturated (s : State) (n : Nat) : State := s.noticeIf (0 < n) srcLedgerSaturated (min n 0xFFFF)

/-- Board size, nothing when the node has no board. -/
def State.boardWH (s : State) : Nat × Nat := s.boardSize.getD (0, 0)

/-- A job's mode on the board; a cleaning round uses mode 15. -/
def Job.roundMode (j : Job) : Nat := match j.kind with
  | .cleaning _ => 15
  | .letter | .render _ | .settling _ _ => j.mode

/-- The round that a lane runs. -/
def State.laneRound (s : State) (l : Lane) : Round :=
  let j := s.job? l.job
  { set := s.waves.inForce, parcel := s.parcel, mode := (j.map Job.roundMode).getD 0,
    settling := match j.map (fun x => x.kind) with | some (JobKind.settling _ _) => true | _ => false,
    modeFrames := l.modeFrames, tailFrames := l.tailFrames, size := s.boardWH, temps := l.temps, spoilt := l.spoilt,
    kept := l.kept, decided := l.decided }

/-- The round that the journal records (R422). DESIGN CHOICE: a torn round is booked by the store as it stands at the recovery,
the octets of a waveform word that cannot be corrected too: after the loss of a plane or ledger word in mid-round every
pixel is booked its journalled frames all the same, and the tail is computed from the ledger left (R424, Table 15.3;
log 79). -/
def State.journalRound (s : State) (j : JRound) : Round :=
  let set := j.set.set
  let parcel := match set with
    | .store => s.store.parcel
    | .none | .rom _ => []
  { set := set, parcel := parcel, mode := j.mode, settling := j.settling,
    modeFrames := if j.settling then 0 else (setLen set parcel j.mode).getD 0,
    tailFrames := if j.tail then setTail set parcel else 0
    size := match set with
      | .store => (wsWidth parcel, wsHeight parcel)
      | .rom c => (classWidth c.val, classHeight c.val)
      | .none => (0, 0)
    temps := j.temps, spoilt := [], kept := [], decided := [] }

/-- Frames that a pixel of a lane has received: those of its row, or fewer when its word was lost (Table 15.3). -/
def Lane.frames (l : Lane) (x y : Nat) : Nat :=
  match l.dropped.find? (fun d => d.1.contains x y) with
  | some d => d.2
  | none => l.got.getD (y - l.rect.y0) 0

/-- The pixels that DELIVERED counts (R274, Tables 15.3, 15.4). -/
def Lane.drivenPixels (l : Lane) (s : Store) : Nat :=
  (l.rect.pixels.filter fun p => !(s.frozen p.1 p.2) && !(l.dropped.any fun d => d.1.contains p.1 p.2)).length

/-- Frames of a round in all. -/
def Lane.lastFrame (l : Lane) : Nat := l.modeFrames + l.tailFrames

/-- The least and the most advanced row (R352). -/
def Lane.least (l : Lane) : Nat := l.got.foldl min (l.got.headD 0)
def Lane.most (l : Lane) : Nat := l.got.foldl max 0

/-! ## Settling blocks (R417 to R419) -/

/-- A block clipped to the board. -/
def State.blockRect (s : State) (col row : Nat) : Option Rect :=
  match s.boardSize with
  | some (w, h) =>
    if 256 * col < w ∧ 64 * row < h then
      some ⟨256 * col, 64 * row, min (256 * col + 255) (w - 1), min (64 * row + 63) (h - 1)⟩
    else none
  | none => none

/-- The blocks that a rectangle touches, in raster order. -/
def Rect.blocks (r : Rect) : List (Nat × Nat) :=
  (List.range (r.y1 / 64 + 1 - r.y0 / 64)).flatMap fun j =>
    (List.range (r.x1 / 256 + 1 - r.x0 / 256)).map fun i => (r.x0 / 256 + i, r.y0 / 64 + j)

/-- The job of a block's settling round. -/
def Desks.settlingJob (d : Desks) (col row : Nat) : Option Job := d.jobs.find? (·.kind = .settling col row)

/-- R418: a block is idle; its own settling round does not count. DESIGN CHOICE: a part covers its rectangle from the start of
its copy on, not from its end: R692 counts a part that "has been copied" and says "from its copy" (log 79). -/
def State.blockIdle (s : State) (col row : Nat) : Bool :=
  match s.blockRect col row with
  | none => false
  | some r =>
    let own := (s.desks.settlingJob col row).map (·.id)
    let lanes := s.board.lanes.toList.any fun l => l.st ≠ .free && some l.job ≠ own && l.rect.overlaps r
    let parts := s.desks.jobs.any fun j => some j.id ≠ own && j.parts.any fun p => (p.st = .copying || p.st = .copied) && p.rect.overlaps r
    !lanes && !parts && !(s.torn.any fun t => t.rect.overlaps r)
      && !(s.desks.jobs.any fun j => j.walked && (j.rect.map (·.meets r)).getD false)

/-- R419: a pixel's ledger magnitude exceeds 96. -/
def State.blockHigh (s : State) (col row : Nat) : Bool :=
  match s.blockRect col row with
  | none => false
  | some r => r.pixels.any fun p => 96 < (s.store.ledger p.1 p.2).natAbs

/-- Raster order of blocks (R693). -/
def blockRaster (a b : Nat × Nat) : Bool := a.2 < b.2 || (a.2 = b.2 && a.1 ≤ b.1)

/-- A block joins the blocks that are due. -/
def State.queueBlock (s : State) (b : Nat × Nat) : State :=
  if s.settling.contains b then s else { s with settling := insertBy blockRaster b s.settling }

/-- Blocks are examined (R417, R419). -/
def State.examine (s : State) (bs : List (Nat × Nat)) : State :=
  bs.foldl (fun s b =>
    if (s.desks.settlingJob b.1 b.2).isNone && s.blockIdle b.1 b.2 && s.blockHigh b.1 b.2 then s.queueBlock b else s) s

/-- Every block of the board is examined (R417, R395). -/
def State.examineAll (s : State) : State :=
  match s.boardSize with
  | some (w, h) => s.examine (Rect.blocks ⟨0, 0, w - 1, h - 1⟩)
  | none => s

/-- A block that stops being idle before its lane is granted is dropped (R419). -/
def State.dropBusyBlocks (s : State) : State :=
  let busy := s.settling.filter fun b => !(s.blockIdle b.1 b.2)
  if busy.isEmpty then s
  else
    { s with settling := s.settling.filter (fun b => !(busy.contains b))
             desks := { s.desks with jobs := s.desks.jobs.filter fun j => match j.kind with
               | .settling c r => !(busy.contains (c, r))
               | .letter | .render _ | .cleaning _ => true } }

/-! ## Torn rectangles (R474) -/

/-- A torn rectangle is added; `tenant` and `number` name its letter. -/
def State.addTorn (s : State) (r : Rect) (tenant : Tenant) (number : BitVec 16) : State :=
  { s with torn := s.torn ++ [⟨(s.torn.foldl (fun n t => max n (t.id + 1)) 0), r, tenant, number⟩] }

/-! ## Words that cannot be corrected (R622, R623, Table 15.3) -/

/-- The pixels of a plane word and of a ledger word. -/
def planeWordRect (rel : Nat) : Rect := ⟨2 * (rel % 2048), rel / 2048, 2 * (rel % 2048) + 15, rel / 2048⟩
def ledgerWordRect (rel : Nat) : Rect := ⟨rel % 4096, rel / 4096, rel % 4096 + 7, rel / 4096⟩

/-- The pixels of a word of the shown plane, the target plane or the ledger (R613). -/
def wordRect (off : Nat) : Option Rect :=
  match regionCode off with
  | 1 => some (planeWordRect (off - shownBase))
  | 2 => some (planeWordRect (off - targetBase))
  | 3 => some (ledgerWordRect (off - ledgerBase))
  | _ => none

/-- A running round drives the pixels of a lost word no more, and keeps the values that the frames they had were driven by,
those of the store before the loss (R412, Table 15.3); `also`: lanes whose round starts with this frame. -/
def State.dropPixels (s : State) (r : Rect) (also : List (Fin 64)) : Board :=
  { s.board with lanes := Vector.ofFn fun i =>
      let l := s.board.lanes[i]
      match (if l.st.started || also.contains i then l.rect.clip r else none) with
      | some c =>
        let q := s.laneRound l
        { l with dropped := l.dropped ++ [(c, l.got.getD (c.y0 - l.rect.y0) 0)]
                 kept := if l.st.started then l.kept ++ c.pixels.map fun p =>
                           (p.1, p.2, q.old s.store p.1 p.2, q.new s.store p.1 p.2)
                         else l.kept }
      | none => l }

/-- A running round keeps the tails it decided on a ledger that is lost (R415). -/
def Board.keepLedger (b : Board) (s : Store) (r : Rect) : Board :=
  { b with lanes := b.lanes.map fun l =>
      match (if l.st.started then l.rect.clip r else none) with
      | some c => { l with decided := l.decided ++ c.pixels.map fun p => (p.1, p.2, s.ledger p.1 p.2) }
      | none => l }

/-- A word is marked as one that cannot be corrected. -/
def Store.markBad (s : Store) (off : Nat) : Store :=
  let a := s.phys off / 8 * 8
  if s.bad.contains a then s else { s with bad := s.bad ++ [a] }

/-- A journal slot whose word is lost (Table 15.3): what the other entries of its round still say. -/
def Store.journalLoss (s : Store) (slot : Nat) : Store × Bool :=
  match s.live.find? (·.slot = slot) with
  | none => (s, false)
  | some e =>
    let live := s.live.filter (·.slot ≠ slot)
    let mine := live.filter fun x => x.round = e.round && x.entry.ofRound = e.entry.ofRound
    let s := { s with live := live }
    match e.entry with
    | .box => ({ s with boxWrite := if mine.any (·.entry = .box) then s.boxWrite else none }, false)
    | .first =>
      if mine.any (·.entry = .first) then (s, false)
      else ({ s with rounds := s.rounds.filter (·.round ≠ e.round) }.journalDrop e.round, true)
    | .last =>
      ({ s with rounds := s.rounds.map fun r =>
          if r.round = e.round then { r with lastDone := mine.any (·.entry = .last) } else r }, false)
    | .frame _ =>
      let k := mine.foldl (fun n x => match x.entry with
        | .frame k => max n k
        | .first | .last | .rows _ | .box | .commit => n) 0
      ({ s with rounds := s.rounds.map fun r => if r.round = e.round then { r with frame := min r.frame k } else r },
       false)
    | .rows _ =>
      let k := mine.foldl (fun n x => match x.entry with
        | .rows k => max n k
        | .first | .last | .frame _ | .box | .commit => n) 0
      ({ s with rounds := s.rounds.map fun r => if r.round = e.round then { r with rowsDone := min r.rowsDone k } else r },
       false)
    | .commit => ({ s with posts := s.posts.filter (·.job ≠ e.round) }, false)

/-- Both copies of the remap table are unreadable: the pages that they redirect count as retired (Table 15.3). A counter that
would fall with its words on the spare pages is told by no copy from then on (R112, R113; log 12). -/
def Store.tableLost (s : Store) : Store :=
  let t := (s.remap.map (·.1)).foldl (fun s p => s.retire p) { s with remap := [], remapA := [], remapB := [] }
  let falls := fun (tag : Nat) => match s.counterOf tag, t.counterOf tag with
    | some v, some w => decide (w < v)
    | some _, none => false
    | none, _ => true
  { t with untold := t.untold ++ (List.range 64).filter fun tag => falls tag && !(t.untold.contains tag) }

/-- A word of the remap table is lost: the other copy is used, if it reads (Table 15.3; log 22). A lost copy holds no
entry. -/
def Store.remapLost (s : Store) (off : Nat) : Store :=
  let s := s.markBad off
  match s.pageLost remapPageA, s.pageLost remapPageB with
  | true, true => s.tableLost
  | true, false => { s with remap := s.remapB, remapA := [] }
  | false, true => { s with remap := s.remapA, remapB := [] }
  | false, false => s

/-- The page of a word that has been dealt with is remapped as a worn one (R623). -/
def State.afterLoss (s : State) (off : Nat) : State :=
  { s with store := s.store.mustRemap (pageOf (s.store.phys off)) }

/-- A word at a store offset cannot be corrected (R622, R623). `also`: lanes whose round starts with this frame;
`frame`: a panel frame reads it. -/
def State.uncorrectable (s : State) (frame : Bool) (also : List (Fin 64)) (off0 : Nat) : State :=
  let off := s.store.served off0
  let code := regionCode off
  let sys := 4096 * systemPage
  if code = 0 ∨ code = 10 then s
  else
    let s := s.notice srcUncorrectable code
    match code with
    | 1 =>
      let r := planeWordRect off
      let store := s.store.put [(off, s.store.readList (targetBase + off) 8)]
      let s := { s with store := store, board := s.dropPixels r also }
      (match s.boardSize.bind fun (bw, bh) => r.clip ⟨0, 0, bw - 1, bh - 1⟩ with
        | some c => s.addTorn c 0 0
        | none => s).afterLoss off
    | 2 =>
      let rel := off - targetBase
      let store := s.store.put [(off, s.store.readList (shownBase + rel) 8)]
      ({ s with store := store, board := s.dropPixels (planeWordRect rel) also }).afterLoss off
    | 3 =>
      let r := ledgerWordRect (off - ledgerBase)
      ({ s with board := s.board.keepLedger s.store r, store := s.store.put [(off, List.replicate 8 0)] }).afterLoss off
    | 4 => ({ s with store := s.store.markBad off }).afterLoss off
    | 5 => ({ s with store := s.store.markBad off }).afterLoss off
    | 6 =>
      let (store, lost) := s.store.journalLoss ((off - slotOffset 0) / 8)
      let s := { s with store := store }
      (match (if lost then s.boardSize else none) with
        | some (bw, bh) => s.addTorn ⟨0, 0, bw - 1, bh - 1⟩ 0 0
        | none => s).afterLoss off
    | 7 =>
      if pageOf off < systemPage + 36 then ({ s with store := s.store.remapLost off }).afterLoss off
      else
        let page := (off - sys - 4096 * 36) / 8
        let store := { s.store with wear := wearInsert page ⟨wearThreshold, wearThreshold, []⟩ s.store.wear }
        ({ s with store := if page < 7424 then store.wearCheck [page] else s.store }).afterLoss off
    | 8 =>
      let t := (off - sys - 4096 * 52) / 128
      ({ s with store := if h : t < 32 then { s.store with readings := s.store.readings.set t none } else s.store
                }).afterLoss off
    | _ =>
      let s := { s with store := s.store.markBad off }
      let s := if frame then
          { s with waves := { s.waves with spoilt := true }
                   board := { s.board with lanes := Vector.ofFn fun i =>
                     let l := s.board.lanes[i]
                     if l.st.started || also.contains i then { l with spoilt := (off, l.rect.y0, l.got) :: l.spoilt } else l } }
        else s
      s.afterLoss off

/-- Words that a command names as damaged join those that no read has met. DESIGN CHOICE: which words are damaged is told by
the commands that carry them; the next command that reads such a word meets it (R621, R622; log 80). -/
def State.find (s : State) (f : Findings) : State :=
  { s with store := { s.store with unread := ⟨s.store.unread.lost ++ f.lost, s.store.unread.fixed ++ f.fixed⟩ } }

/-- A command reads words: of the damaged ones, those corrected are written back, and those that cannot be corrected are
dealt with in turn (R621 to R623). `reads` tells the words by the offset they serve. -/
def State.readWords (s : State) (frame : Bool) (also : List (Fin 64)) (reads : Nat → Bool) : State :=
  let f := s.store.unread
  let mine := fun (o : Nat) => reads (s.store.served o)
  let s := { s with store := { s.store with unread := dropFound f mine } }
  let s := { s with store := (f.fixed.filter mine).foldl (fun st o => st.putBack (st.served o)) s.store }
  (f.lost.filter mine).foldl (fun s o => s.uncorrectable frame also o) s

/-- A command reads words, once it has named damaged ones. -/
def State.takeFindings (s : State) (frame : Bool) (also : List (Fin 64)) (reads : Nat → Bool) (f : Findings) : State :=
  (s.find f).readWords frame also reads

/-- The words of some regions, by their codes (Table 15.1). -/
def inRegions (codes : List Nat) (off : Nat) : Bool := codes.contains (regionCode off)

/-- A board that is gone (R49, R50, R394; log 73): every POST past its walk is answered, and rounds of the node's own end
without an outcome; what they had copied is set back, and their lanes are freed. No round runs then. -/
def State.boardGone (s : State) : State :=
  if s.boardSize.isSome then s
  else
    (s.desks.jobs.filter fun j => j.walked || j.letter.isNone).foldl (fun s j =>
      s.withdrawStaged j stOutside ((j.letter.map fun l => bBox l.body).getD 0)) s

/-- POSTs that have started and whose mode the set in force lacks: they are answered as at R386's check, and what they had
copied is set back. DESIGN CHOICE: the spec does not say what becomes of them (log 79). -/
def State.modesGone (s : State) : State :=
  (s.desks.jobs.filter fun j => j.isPost && j.started && j.outcome.isNone && (s.modeLen j.mode).isNone).foldl
    (fun s j => s.withdrawStaged j stMalformed 8) s

/-- The set that has lost a word becomes invalid once no round runs (Table 15.3). -/
def State.dropSpoilt (s : State) : State :=
  if s.waves.spoilt && !(s.board.lanes.toList.any (·.st.started)) then
    let s := { s with waves := { s.waves with spoilt := false, valid := false } }
    { s with waves := { s.waves with inForce := s.setChoice } }.boardGone.modesGone.notice srcWavesetInvalid 0
  else s

end Sys2Proof.Machine
end

