-- ==== Sys2Proof/Machine/Ops.lean ====
section
/-! DEFINITION. What follows every command: releases of hands, ends of recalls, notices of changed conditions, loading of
outbound letters, idle times, the wake from WATCH; and the millisecond of an idle step. -/
namespace Sys2Proof.Machine

/-! ## Idle conditions (R585, R587) -/

/-- A copy of a part is in progress. -/
def State.copying (s : State) : Bool := s.desks.jobs.any fun j => j.parts.any (·.st = .copying)

/-- A WAVESET waits or is being written (R390, R391). -/
def State.wavesetWaiting (s : State) : Bool :=
  s.desks.jobs.any fun j => j.letterKind = some .waveset && (j.st = .pendingEffect || j.st = .writing)

/-- A render, settling round or cleaning round is pending. -/
def State.roundsPending (s : State) : Bool :=
  s.renders.toList.any (·.pending) || s.settling ≠ [] || s.torn ≠ [] || s.desks.jobs.any fun j => j.letter.isNone

/-- The conditions of R585. -/
def State.quietOk (s : State) : Bool :=
  s.mode = .active && !s.shutting && s.board.allFree && !s.copying && !s.roundsPending && !s.wavesetWaiting

/-- Outbound kinds that keep the node from WATCH. -/
def answersKind (k : BitVec 5) : Bool := k = kReceipt || k = kAnswer || k = kStatus || k = kWeight

/-- No such letter is waiting or loaded. -/
def State.answersGone (s : State) : Bool :=
  let chan := fun (c : Channel) =>
    c.bufs.any (fun b => answersKind (idKind b.ident)) || c.loading.any (fun x => answersKind (idKind x.ident))
  let port := fun (p : Courier) => (p.receipts ++ p.generals).any fun o => answersKind o.kind
  !(s.desks.out.any fun o => answersKind o.kind) && !(chan s.chanA) && !(chan s.chanB) && !(port s.portA) && !(port s.portB)

/-- A channel lets the node go to WATCH. -/
def State.chanIdle (s : State) (c : Chan) : Bool :=
  !(s.inUse c) || (((s.chan c).st = .errorActive || (s.chan c).st = .silent) && !(s.chan c).roll.inWindow)

/-- The conditions of R587 but WAKE#, which WATCH_ENTRY brings (log 25); they are counted in ACTIVE too. -/
def State.watchOk (s : State) : Bool :=
  (s.mode = .active || s.mode = .quiet) && !s.shutting && !(s.desks.jobs.any (·.letter.isSome)) && s.desks.refusalTotal = 0
    && s.answersGone && s.board.allFree && s.board.rails = .off
    && !(s.desks.jobs.any (·.earmark.isSome)) && !s.energy.weighing && !s.roundsPending
    && s.chanIdle .a && s.chanIdle .b && !s.portA.csLow && !s.portB.csLow
    && s.clock.src = .pll && !s.barred

/-! ## Waking (Table 14.5) -/

/-- A wake from WATCH begins: the core runs on the start clock, uptime still on the watch oscillator (R577). It leads to
QUIET (R590), or, for a passed deadline or an event with a subscriber, on to ACTIVE (R512, R558; log 38). -/
def State.wake (s : State) (into : Mode) : State :=
  if s.mode = .watch then
    { s with mode := into, clock := { s.clock with src := .start, waking := true }
             idle := { s.idle with quietMs := 0, watchMs := 0 }
             energy := { s.energy with charger := if s.energy.charger = .pulse then .on else s.energy.charger } }
  else s

/-- A source with an event in this command has an eligible subscriber (R558). -/
def State.firedToSomeone (s : State) : Bool :=
  (List.finRange 64).any fun i => s.desk.fired.getLsbD i.val && (List.finRange 32).any fun t => s.eligible i t

/-! ## The rails when no lane is in use -/

/-- HVEN is asserted, or the internal rails are enabled (Table 9.5). -/
def State.railsEnabled (s : State) : Bool := s.board.rails = .enabling || s.board.rails = .waitGood || s.board.rails = .on

/-- The rails go off without the wait of R345: when the last lane is FREE under an open loop (R456), or when no round runs
any more in closing time, whose STAGED and ARMED lanes never start (R461, R464). -/
def State.railsAfterFree (s : State) : State :=
  if s.railsEnabled && ((s.board.loopOpen && s.board.allFree)
      || (s.shutting && !(s.board.lanes.toList.any (·.st.started)))) then
    { s with board := { s.board with rails := .disabling, freeSince := none } }
  else s

/-! ## Notices of changes -/

/-- FLAG_CHANGE for each flag output that has changed its level (Table 13.1). -/
def State.flagNotices (old s : State) : State :=
  let fl := (List.range 8).filter fun k => old.flagSinks k ≠ s.flagSinks k
  s.notices srcFlagChange (fl.map fun k => k + 256 * bitOf 0 (s.flagSinks k))

/-- FLAG_CHANGE, ALARM and ENERGY_SHORT. -/
def State.changeNotices (old s : State) : State :=
  let s1 := old.flagNotices s
  let al := (s.tiles.map (·.1.val)).filter fun k => old.tileAlarmed k ≠ s.tileAlarmed k
  let s2 := s1.notices srcAlarm (al.map fun k => k + 256 * bitOf 0 (s.tileAlarmed k))
  s2.noticeIf (old.energyShort ≠ s.energyShort) srcEnergyShort (bitOf 0 s.energyShort)

/-- SPARES_LOW and REGION_DEGRADED (R633, R634). -/
def State.storeNotices (old s : State) : State :=
  if old.store.remap = s.store.remap ∧ old.store.remapping = s.store.remapping ∧ old.store.retired = s.store.retired then s
  else
    let a := old.store.freeSpares.length
    let b := s.store.freeSpares.length
    let s1 := s.notices srcSparesLow (([64, 32, 16, 0].filter fun l => l < a && b ≤ l).map fun _ => b)
    s1.notices srcRegionDegraded (s.store.degraded.filter fun c => !(old.store.degraded.contains c))

/-- Rounds that ask for a lane: copied parts, those of a staged POST from the end of its commit (R364). -/
def Job.laneParts (j : Job) : List Part :=
  if j.tag ≠ 0 && !j.committed then [] else j.parts.filter (·.st = .copied)
def State.waitingRounds (s : State) : List Nat := s.desks.jobs.flatMap fun j => j.laneParts.map (·.round)

/-- The lanes of a job are STAGED: it is tagged, and not released, or released and without an earmark (R24, R372). -/
def Job.stages (j : Job) : Bool := j.tag ≠ 0 && (!j.released || j.earmark.isNone)

/-- A staged POST that waits under R356. -/
def State.stagedWait (s : State) (j : Job) : Bool :=
  j.isPost && j.stages && 48 ≤ s.board.stagedCount && !j.laneParts.isEmpty

/-- The DETAILs of LANES_FULL: one event for each round that starts to wait while no lane is FREE, with the rounds that
wait by then (Table 13.1). -/
def State.lanesFull (old s : State) : List Nat :=
  let waiting := s.waitingRounds
  let late := (waiting.filter fun r => !(old.waitingRounds.contains r)).length
  if s.board.freeCount = 0 then (List.range late).map fun i => min 127 (waiting.length - late + i + 1) else []

/-- LANES_FULL and STAGED_LIMIT (Table 13.1). -/
def State.laneNotices (old s : State) : State :=
  let s1 := s.notices srcLanesFull (old.lanesFull s)
  s1.notices srcStagedLimit ((s.desks.jobs.filter fun j =>
    s.stagedWait j && !(old.desks.jobs.any fun i => i.id = j.id && old.stagedWait i)).map fun j =>
      (j.tenant.map (·.val)).getD 0)

/-- A channel that loads letters has no buffer left for a RECEIPT or ANSWER. -/
def Channel.receiptsFull (c : Channel) : Bool := c.st.loads && !c.shut && c.free .receipt false = 0

/-- The inlet on which a RECEIPT or ANSWER waits for a slot (R203) or a buffer; not one that waits for its identifier
(R212), or for a channel that cannot transmit (R690). -/
def State.backlog? (s : State) (o : OutLetter) : Option Inlet :=
  if o.cls ≠ .receipt ∨ o.unsent = true then none
  else
    match o.port with
    | some p => if portSlots ≤ ((s.port p).slots .receipt).length then some (.courier p) else none
    | none =>
      if o.toA && s.chanA.receiptsFull then some (.channel .a)
      else if o.toB && s.chanB.receiptsFull then some (.channel .b)
      else none

/-- RECEIPT_BACKLOG for each RECEIPT or ANSWER that has started to wait (Table 13.1). -/
def State.backlogNotices (old s : State) : State :=
  let waited := fun (o : OutLetter) => old.desks.out.any fun x => x.id = o.id && (old.backlog? x).isSome
  s.notices srcReceiptBacklog (((s.desks.out.filter fun o => !(waited o)).filterMap s.backlog?).map inletCode)

/-! ## Renders -/

/-- A tile's render is made pending; further causes join it (R492). -/
def State.renderDue (s : State) (k : Fin 33) : State :=
  let r := s.renders[k]
  if s.drawsTiles && !r.pending then
    { s with renders := s.renders.set k { r with pending := true, since := none, waitNoted := false, claiming := false } }
  else s

/-- The place of a tile among the renders. -/
def tileRender (k : Fin 32) : Fin 33 := k.castLE (by decide)

/-- A tile that changes state is rendered (R492). -/
def State.stateRenders (old s : State) : State :=
  s.tiles.foldl (fun s x =>
    if tileState old.store.readings x.2 = tileState s.store.readings x.2 then s else s.renderDue (tileRender x.1)) s

/-! ## After a command -/

/-- QUOTA_LIMIT may be raised again once the ordinary letters have fallen below the limit (R261). -/
def State.quotaReset (s : State) : State :=
  { s with desks := { s.desks with standing := Vector.ofFn fun t =>
      let x := s.desks.standing[t]
      if x.quotaNoted && s.ordinary t < (s.fuses.tenants[t]).quota - 2 then { x with quotaNoted := false } else x } }

/-- "Energy short" by a Held POST ends when no POST has been Held for 60 s (Table 12.4). -/
def State.heldLong (s : State) : Bool :=
  s.desks.jobs.any fun j => j.isPost && j.st = .held && (match j.heldSince with
    | some t => t + 60000 ≤ s.clock.uptime
    | none => false)

/-- Bookkeeping of state: the journal's POSTs, held energy, idle times. -/
def State.tidy (s : State) : State :=
  { s with
    store := if s.start.quickChecked then
        { s.store with posts := s.store.posts.filter fun p => s.desks.jobs.any (·.id = p.job) }.dropCommits else s.store
    energy := { s.energy with shortHeld := s.energy.shortHeld && s.heldLong }
    idle := { s.idle with quietMs := if s.quietOk then s.idle.quietMs else 0
                          watchMs := if s.watchOk then s.idle.watchMs else 0 } }

/-- The desk is ready for the next command: the window of R549 opens or goes on (R550). -/
def Desk.turn (d : Desk) : Desk := { d with fired := 0, window := max d.opening (d.window - 1), opening := 0 }

/-- What follows a command; `old` is the state before it. -/
def State.finish (old s : State) : State :=
  let s := s.dropHand
  let s := s.recallsDone s.desks.recalls.length
  let s := old.stateRenders s
  let s := s.railsAfterFree.tidy
  let s := old.changeNotices s
  let s := old.storeNotices s
  let s := old.laneNotices s
  let s := s.pump.quotaReset
  let s := old.backlogNotices s
  let s := if s.mode = .watch ∧ s.firedToSomeone then s.wake .active else s
  { s with desk := s.desk.turn }

/-! ## The millisecond of an idle step (R576 to R579) -/

/-- Uptime counts in this state. -/
def State.counts (s : State) : Bool :=
  s.clock.running && s.mode ≠ .off && s.mode ≠ .inReset && s.mode ≠ .doze

/-- One millisecond passes. -/
def State.tick (s : State) : State :=
  if s.counts then
    { s with clock := { s.clock with uptime := s.clock.uptime + 1
                                     watchCounted := s.clock.watchCounted || s.clock.onWatchOsc }
             desk := { s.desk with window := 0 }
             idle := { s.idle with quietMs := if s.quietOk then s.idle.quietMs + 1 else 0
                                   watchMs := if s.watchOk then s.idle.watchMs + 1 else 0 } }
  else s

end Sys2Proof.Machine
end

