-- ==== Sys2Proof/Machine/FuseOps.lean ====
section
/-! DEFINITION. The fuse array: records and their checks (R82, R83, R90, R93 to R95, R682), the working set-up at a cold start
(R94, R97, R118, R121), the image checks (Table 3.9), and the order of a burn (R102). -/
namespace Sys2Proof.Machine

/-! ## Reading an array (Tables 3.1, 3.5); an array is a function from byte offset to byte -/

/-- Octets of an array. -/
def fBytes (a : Nat → Byte) (off n : Nat) : List Byte := (List.range n).map fun i => a (off + i)

/-- A little-endian field. -/
def fNat (a : Nat → Byte) (off n : Nat) : Nat := leNat (fBytes a off n) 0 n

/-- A triple reads 1 when at least two of its bits are burned (R83); it is whole when all three are. -/
def triple (a : Nat → Byte) (off lo : Nat) : Nat :=
  bitOf 0 ((a off).getLsbD lo) + bitOf 0 ((a off).getLsbD (lo + 1)) + bitOf 0 ((a off).getLsbD (lo + 2))
def tripleReads (a : Nat → Byte) (off lo : Nat) : Bool := 2 ≤ triple a off lo
def confReads (a : Nat → Byte) : Bool := tripleReads a 0x600 0
def sealReads (a : Nat → Byte) : Bool := tripleReads a 0x600 3
def evalReads (a : Nat → Byte) : Bool := tripleReads a 0x601 0
def tlockReads (a : Nat → Byte) : Bool := tripleReads a 0x601 3

/-- Lifecycle (R83). -/
def lifeOf (a : Nat → Byte) : Life := if sealReads a then .sealed else if confReads a then .configured else .blank

/-- The three classes of record (Table 3.1). -/
inductive RecClass where
  | tenant
  | district
  | key
deriving DecidableEq, Repr

def RecClass.count : RecClass → Nat
  | .tenant => 32 | .district => 64 | .key => 8
def RecClass.size : RecClass → Nat
  | .tenant => 8 | .district => 16 | .key => 32
def RecClass.base : RecClass → Nat
  | .tenant => 0x000 | .district => 0x100 | .key => 0x500
def RecClass.checkBase : RecClass → Nat
  | .tenant => 0x618 | .district => 0x658 | .key => 0x6D8
def RecClass.writtenBase : RecClass → Nat
  | .tenant => 0x604 | .district => 0x608 | .key => 0x610
/-- Class code of RECORD_CHECK (Table 13.1). -/
def RecClass.code : RecClass → Nat
  | .tenant => 1 | .district => 2 | .key => 3

/-- Octets of a record, its check word, and its WRITTEN bit. -/
def recBytes (a : Nat → Byte) (c : RecClass) (n : Nat) : List Byte := fBytes a (c.base + c.size * n) c.size
def recCheck (a : Nat → Byte) (c : RecClass) (n : Nat) : Nat := fNat a (c.checkBase + 2 * n) 2
def recWritten (a : Nat → Byte) (c : RecClass) (n : Nat) : Bool := (a (c.writtenBase + n / 8)).getLsbD (n % 8)

/-- The record carries a non-zero reserved field or a reserved code (R95). -/
def recReserved (c : RecClass) (b : List Byte) : Bool :=
  match c with
  | .tenant =>
    let v := leNat b 0 8
    v.testBit 3 || v / 2 ^ 12 % 16 ≠ 0 || v / 2 ^ 21 % 8 ≠ 0 || v / 2 ^ 26 % 4 ≠ 0 || v.testBit 31 || v / 2 ^ 38 ≠ 0
      || v / 2 ^ 24 % 4 = 3 || 62 ≤ v / 2 ^ 32 % 64
  | .district => 2 ≤ (octet b 0xC).toNat || !zeros b 0xD 3
  | .key => false

/-- R90. -/
def districtSound (b : List Byte) : Bool :=
  leNat b 0 2 ≤ leNat b 4 2 && leNat b 2 2 ≤ leNat b 6 2 && leNat b 0 2 % 8 = 0 && (leNat b 4 2 + 1) % 8 = 0

/-- A written record fails its check (R93, R95). -/
def recFails (a : Nat → Byte) (c : RecClass) (n : Nat) : Bool :=
  recWritten a c n &&
    (let b := recBytes a c n
     recCheck a c n ≠ (crc16 b).toNat || recReserved c b || (c = .district && !(districtSound b)))

/-- The records of a class that fail. -/
def failing (a : Nat → Byte) (c : RecClass) : List Nat := (List.range c.count).filter (recFails a c)

/-- A tenant entry (Table 3.3). -/
def tenantCfg (b : List Byte) : TenantCfg :=
  let v := leNat b 0 8
  { enable := v.testBit 0, sealReq := v.testBit 1, fastClass := v.testBit 2, rights := BitVec.ofNat 8 (v / 2 ^ 4),
    quota := 16 * (v / 2 ^ 16 % 32 + 1),
    port := match v / 2 ^ 24 % 4 with | 1 => some .a | 2 => some .b | _ => none,
    keySlot := ⟨v / 2 ^ 28 % 8, Nat.mod_lt _ (by decide)⟩, holdOff := BitVec.ofNat 6 (v / 2 ^ 32) }

/-- A district entry (Table 3.4). -/
def districtCfg (b : List Byte) : District :=
  { rect := ⟨leNat b 0 2, leNat b 2 2, leNat b 4 2, leNat b 6 2⟩, owners := BitVec.ofNat 32 (leNat b 8 4),
    isShared := (octet b 0xC).getLsbD 0 }

/-- A key slot that is written, unrevoked and passes its check. -/
def keyUsable (a : Nat → Byte) (k : Nat) : Bool :=
  recWritten a .key k && !((a 0x611).getLsbD k) && !(recFails a .key k)

/-- An enabled tenant of a programmed array. -/
def tenantOn (a : Nat → Byte) (n : Nat) : Bool :=
  recWritten a .tenant n && !(recFails a .tenant n) && (tenantCfg (recBytes a .tenant n)).enable

/-- The conditions of Table 3.11 but the lifecycle and EVAL. -/
def evalConditions (a : Nat → Byte) : Bool :=
  tlockReads a
    && (List.range 32).all (fun n => !(tenantOn a n) ||
        ((tenantCfg (recBytes a .tenant n)).sealReq && keyUsable a (tenantCfg (recBytes a .tenant n)).keySlot.val))
    && (failing a .tenant).isEmpty && (failing a .district).isEmpty && (failing a .key).isEmpty

/-! ## The working set-up (R94, R97, R118, R121) -/

/-- The bits of a list of places. -/
def bitsOf (l : List Nat) : Nat := l.foldl (fun n i => n + 2 ^ i) 0

/-- A tenant of the BLANK defaults (Table 3.7). -/
def blankTenant (quotaCode : Nat) (t : Tenant) : TenantCfg :=
  { enable := true, sealReq := false, fastClass := t = 0, rights := 0xFF, quota := quotaProfile quotaCode t.val,
    port := if t = 30 then some .a else if t = 31 then some .b else none, keySlot := 0, holdOff := 0 }

/-- The fuse array of the node. -/
def Fuses.byte (f : Fuses) (i : Nat) : Byte := Mem.read fuseDefault f.array i

/-- The fuses as a cold start reads them; `quota`: the QUOTA code. District 0 of Table 3.7 is not among the entries: it
follows the board. -/
def Fuses.load (f : Fuses) (quota : Nat) : Fuses :=
  let a := f.byte
  let life := lifeOf a
  if life = .blank then
    { f with life := .blank, eval := false, tlock := false, evaluated := false, tfail := 0, dfail := 0, kfail := 0,
             fault := false, tenants := Vector.ofFn (blankTenant quota)
             districts := Vector.replicate 64 none
             keys := Vector.replicate 8 none }
  else
    let tf := failing a .tenant
    let df := failing a .district
    let kf := failing a .key
    let anyFail := !(tf.isEmpty && df.isEmpty && kf.isEmpty)
    { f with
      life := life, eval := evalReads a, tlock := tlockReads a
      evaluated := life = .sealed && evalReads a && evalConditions a
      tfail := BitVec.ofNat 32 (bitsOf tf), dfail := BitVec.ofNat 64 (bitsOf df), kfail := BitVec.ofNat 8 (bitsOf kf)
      fault := life = .sealed && evalReads a && anyFail
      tenants := Vector.ofFn fun t =>
        if recWritten a .tenant t.val && !(recFails a .tenant t.val) then tenantCfg (recBytes a .tenant t.val)
        else TenantCfg.disabled
      districts := Vector.ofFn fun d =>
        if recWritten a .district d.val && !(recFails a .district d.val) then
          some (districtCfg (recBytes a .district d.val)) else none
      keys := Vector.ofFn fun k => if keyUsable a k.val then some (recBytes a .key k.val) else none }

/-! ## Fuse images (Tables 3.9, 3.10) -/

/-- Body bytes of an image, and the array as it would be after the burn. -/
def imageByte (m : List Byte) (i : Nat) : Byte := octet m (32 + i)
def resultByte (a : Nat → Byte) (m : List Byte) (i : Nat) : Byte := a i ||| imageByte m i

/-- Sessions used: the burned SESSIONS bits. -/
def sessions (a : Nat → Byte) : Nat :=
  (List.range 16).foldl (fun n i => n + bitOf 0 ((a (0x612 + i / 8)).getLsbD (i % 8))) 0

/-- A reserved bit or code in the image, or a SESSIONS bit (R12, R682). -/
def imageReserved (m : List Byte) : Bool :=
  let b := imageByte m
  !zeros m 0x06 2 || !zeros m 0x14 8
    || (List.range 32).any (fun n => recReserved .tenant (recBytes b .tenant n))
    || (List.range 64).any (fun n => recReserved .district (recBytes b .district n))
    || 64 ≤ (b 0x600).toNat || 64 ≤ (b 0x601).toNat || fNat b 0x602 2 ≠ 0 || fNat b 0x612 2 ≠ 0 || fNat b 0x614 4 ≠ 0
    || fNat b 0x6E8 280 ≠ 0

/-- Every record, by class and number. -/
def allRecords : List (RecClass × Nat) :=
  (List.range 32).map (fun n => (.tenant, n)) ++ (List.range 64).map (fun n => (.district, n))
    ++ (List.range 8).map (fun n => (.key, n))

/-- The image sets a bit of the record or of its check word. -/
def imageTouches (m : List Byte) (c : RecClass) (n : Nat) : Bool :=
  (recBytes (imageByte m) c n).any (· ≠ 0) || recCheck (imageByte m) c n ≠ 0

/-- The burned bits of the record and check word that are 0 in the image. -/
def imageSpoilt (a : Nat → Byte) (m : List Byte) (c : RecClass) (n : Nat) : Bool :=
  (List.range c.size).any (fun i => a (c.base + c.size * n + i) &&& ~~~ imageByte m (c.base + c.size * n + i) ≠ 0)
    || (List.range 2).any (fun i => a (c.checkBase + 2 * n + i) &&& ~~~ imageByte m (c.checkBase + 2 * n + i) ≠ 0)

/-- The enabled tenants of the resulting array. DESIGN CHOICE: a written entry counts for QUOTA_SUM, PORT_CONFLICT and
KEY_MISSING although it fails its check, and will count as not written after the next cold start (R94, R101; log 64). -/
def resultTenants (a : Nat → Byte) (m : List Byte) : List TenantCfg :=
  let r := resultByte a m
  ((List.range 32).filter fun n => recWritten r .tenant n && (tenantCfg (recBytes r .tenant n)).enable).map fun n =>
    tenantCfg (recBytes r .tenant n)

/-- Results 0x03 to 0x10 of Table 3.9, first failure first (R101). -/
def imageFault (a : Nat → Byte) (m : List Byte) : Option Byte :=
  let b := imageByte m
  let r := resultByte a m
  let partial' := fun (off lo : Nat) => triple b off lo = 1 || triple b off lo = 2
  if leNat m 0 4 ≠ 0x49464C50 ∨ leNat m 4 2 ≠ 1 ∨ leNat m 8 4 ≠ 2048 then some 0x03
  else if leNat m 0x1C 4 ≠ (crc32 (m.take 0x1C ++ m.drop 32)).toNat then some 0x04
  else if imageReserved m then some 0x05
  else if leNat m 0x10 4 ≠ sessions a then some 0x06
  else if 16 ≤ sessions a then some 0x07
  else if lifeOf a = .sealed ∨ (lifeOf a = .blank ∧ triple b 0x600 0 ≠ 3) ∨ partial' 0x600 0 ∨ partial' 0x600 3
      ∨ partial' 0x601 0 ∨ partial' 0x601 3 then some 0x08
  else if allRecords.any (fun x => recWritten a x.1 x.2 && imageTouches m x.1 x.2) then some 0x09
  else if allRecords.any (fun x => (imageTouches m x.1 x.2 || recWritten b x.1 x.2)
      && !(recWritten b x.1 x.2 && recCheck b x.1 x.2 = (crc16 (recBytes b x.1 x.2)).toNat)) then some 0x0A
  else if allRecords.any (fun x => recWritten b x.1 x.2 && imageSpoilt a m x.1 x.2) then some 0x0B
  else if (List.range 64).any (fun n => recWritten b .district n && !(districtSound (recBytes b .district n))) then some 0x0C
  else if 2048 < (resultTenants a m).foldl (fun n t => n + t.quota) 0 then some 0x0D
  else if 1 < ((resultTenants a m).filter (·.port = some .a)).length
      ∨ 1 < ((resultTenants a m).filter (·.port = some .b)).length then some 0x0E
  else if (resultTenants a m).any (fun t => t.sealReq
      && !(recWritten r .key t.keySlot.val && !((r 0x611).getLsbD t.keySlot.val))) then some 0x0F
  else if evalReads r && !(evalConditions r) then some 0x10
  else none

/-- Results 0x11 and 0x12 (R101; Electrical Characteristics). -/
def envFault (e : FuseEnv) : Option Byte :=
  if e.vqps < 6250 ∨ 6750 < e.vqps then some 0x11 else if e.temp < 0 ∨ 70 < e.temp then some 0x12 else none

/-- The result of CHECK (Table 3.9). -/
def Fuses.checkResult (f : Fuses) (e : FuseEnv) : Byte :=
  match f.image with
  | none => 0x02
  | some m =>
    match imageFault f.byte m with
    | some r => r
    | none => (envFault e).getD 0

/-- The bits of some image bytes that are still to burn, in ascending order; `mask` picks bits of each byte. -/
def bitsToBurn (a : Nat → Byte) (m : List Byte) (offs : List Nat) (mask : Byte) : List (Nat × Nat) :=
  offs.flatMap fun o => ((List.range 8).filter fun i =>
    (imageByte m o &&& mask &&& ~~~ a o).getLsbD i).map fun i => (o, i)

/-- Consecutive offsets. -/
def span (lo n : Nat) : List Nat := (List.range n).map (lo + ·)

/-- The order of a burn (R102). -/
def burnList (a : Nat → Byte) (m : List Byte) : List (Nat × Nat) :=
  let next := sessions a
  [(0x612 + next / 8, next % 8)]
    ++ bitsToBurn a m (span 0 0x600 ++ span 0x618 208) 0xFF
    ++ bitsToBurn a m (span 0x604 14) 0xFF
    ++ bitsToBurn a m [0x601] 0x38 ++ bitsToBurn a m [0x601] 0x07
    ++ bitsToBurn a m [0x600] 0x07 ++ bitsToBurn a m [0x600] 0x38

/-- One bit burned. -/
def Fuses.burn (f : Fuses) (x : Nat × Nat) : Fuses :=
  { f with array := Mem.write fuseDefault f.array x.1 (f.byte x.1 ||| BitVec.ofNat 8 (2 ^ x.2)) }

/-! ## Fuse mode (Table 3.8) -/

/-- Fuse mode answers on port A. -/
def State.fuseReady (s : State) : Bool := s.setup.fuseen && s.start.fused && s.portA.live && s.fuses.burning.isNone

/-- A response: the command byte, the result, a length and a payload. -/
def fuseResponse (code result : Byte) (payload : List Byte) : List Byte :=
  code :: result :: leBytes payload.length 2 ++ payload

/-- A response is ready; `keep`: the last result it leaves (log 23). -/
def Fuses.respond (f : Fuses) (code result : Byte) (payload : List Byte) (keep : Byte) : Fuses :=
  { f with response := some (fuseResponse code result payload), lastResult := keep }

/-- The array as READ gives it (R92). -/
def Fuses.readOut (f : Fuses) : List Byte :=
  (List.range 2048).map fun i =>
    if (0x500 ≤ i ∧ i ≤ 0x5FF) ∨ (0x6D8 ≤ i ∧ i ≤ 0x6E7) then 0 else f.byte i

/-- Lifecycle code. -/
def Life.code : Life → Nat
  | .blank => 0 | .configured => 1 | .sealed => 2

end Sys2Proof.Machine
end

