-- ==== Sys2Proof/Machine/StartOps.lean ====
section
/-! DEFINITION. Cold start, reset and OFF (R534, R598, R602, R606), what the retention latches keep (R282, R520, R556, R559),
recovery from the journal (R470 to R477), the opening of the inlets (R608), and WATCH and DOZE (R588, R595). -/
namespace Sys2Proof.Machine

/-! ## The retention latches across DOZE (R520, R556, R559) -/

/-- What is left of a time to come. -/
def leftOf (now : Nat) (t : Nat) : Nat := t - now

/-- The notice desk as a cold start that ends DOZE restores it. -/
def Desk.latched (d : Desk) (now : Nat) : Desk :=
  { d with subs := d.subs.map (fun x => { x with sent := 0 }), holdOff := d.holdOff.map (·.map (leftOf now))
           window := 0, opening := 0, flying := [], fired := 0 }

/-- The tenant segments as a cold start that ends DOZE restores them. -/
def Stamp.latched (p : Stamp) (now : Nat) : Stamp :=
  { Stamp.initial with segs := p.segs, fallback := p.fallback.map (·.map fun f => (leftOf now f.1, f.2)) }

/-- A stored reading in a new boot: of unknown age, without trend (R486, R502). -/
def Reading.aged (r : Reading) : Reading := { r with time := none, stale := false, trend := [] }

/-- Offset of the latest readings (Table 15.2). -/
def readingsBase : Nat := 4096 * (systemPage + 52)

/-- What a boot's end leaves of the store's bookkeeping: a remap copy that was never entered is void, and the table is
read from the copy with more entries (R631); wear tracking is lost (R626, R627), readings of a retired page are lost
(Table 15.4). -/
def Store.restart (s : Store) : Store :=
  let gone := s.isRetired readingsBase
  { s.reloadWear with
    remap := s.remapChoice
    remapping := []
    readings := s.readings.map fun r => if gone then none else r.map Reading.aged }

/-! ## Cold start, reset, OFF -/

/-- The WAVESET that is being written (R392). -/
def State.inWriting (s : State) : Option Letter :=
  (s.desks.jobs.find? fun j => j.letterKind = some .waveset && j.st = .writing).bind (·.letter)

/-- A parcel whose writing the end of the boot cuts: each word holds its old value or its new one (R392, R618; log 75). -/
def State.cutParcel (s : State) : Store :=
  match s.inWriting with
  | some l => s.store.putCut [(waveBase, l.body)]
  | none => s.store

/-- Everything that lives in the powered dies is lost; `latched`: the retention latches hold (R534, R559, R560). DESIGN
CHOICE: the last die temperature is kept, by which V_LCD is computed until a rotation completes (R522; log 2); a burn that had
not ended has burned nothing (R102; log 66), and the instruction register of the TAP keeps what it holds (R117; log 67). -/
def State.cleared (s : State) (mode : Mode) (latched : Bool) : State :=
  { State.reset with
    mode := mode
    pins := s.pins
    boot := s.boot
    fuses := { Fuses.initial with array := s.fuses.array }
    portA := { Courier.initial with csLow := s.portA.csLow }
    portB := { Courier.initial with csLow := s.portB.csLow }
    desk := if latched then s.desk.latched s.clock.uptime else Desk.initial
    waves := { State.reset.waves with valid := s.waves.valid }
    dieTemp := s.dieTemp
    store := s.store.restart
    torn := s.torn
    stamp := if latched then s.stamp.latched s.clock.uptime else Stamp.initial
    tap := s.tap
    pending := s.pending }

/-- The conditions that the cold start after a DOZE ends, as events in the latches (Table 13.1; log 40): every reading is of
an earlier boot, so no tile is in alarm (R482), and no weigh-in stands (Table 12.4). DESIGN CHOICE: the standings that become
HEALTHY raise no FAULT_STATE (R282, R291; log 40). -/
def State.endedByDoze (old s : State) : State :=
  (s.notices srcAlarm ((old.tiles.map (·.1.val)).filter old.tileAlarmed)).noticeIf old.energyShort srcEnergyShort 0

/-- A cold start begins (R605, R606); the internal reset is held until VIO and VSYS are there (R465, R650). -/
def State.coldStart (s : State) (cause : BootCause) (full latched : Bool) : State :=
  let t := { s.cleared .coldStart latched with
    start := { State.reset.start with cause := cause, fullCheck := full, held := !(s.pins.vio && s.pins.vsys) } }
  if latched then { t with desk := { (s.endedByDoze t).desk with fired := 0 } } else t

/-- The internal reset is released once VIO and VSYS are there (R650). -/
def State.releaseHeld (s : State) : State :=
  if s.pins.vio && s.pins.vsys then { s with start := { s.start with held := false } } else s

/-- The charger in reset (Table 16.4): one that runs goes on, out of pulse mode, which is of WATCH and DOZE (R583), and out of the
pause of a weigh-in, which ends with the reset; one that was stopped stays so (R430; log 58). -/
def Charger.inReset : Charger → Charger
  | .on | .paused | .pulse => .on
  | .off => .off
  | .stopped => .stopped

/-- In reset on RESET#: the boot that follows is one on RESET# (R605, Table 13.1). -/
def State.resetPin (s : State) : State :=
  { s.cleared .inReset false with start := { State.reset.start with cause := .reset, fullCheck := false }
                                  energy := { Energy.initial with charger := s.energy.charger.inReset } }

/-- Reset is entered at once (R601): a parcel in writing is cut, and the counts of wear are written (R602, R627). -/
def State.enterResetPin (s : State) : State := { s with store := s.cutParcel.saveAllWear }.resetPin

/-- OFF is entered (R598): the channels are unpowered (Table 14.3). -/
def State.enterOff (s : State) : State :=
  { s.cleared .off false with chanA := { Channel.initial with st := .unpowered }
                              chanB := { Channel.initial with st := .unpowered } }

/-- The closing record (Table 11.5), after the counts of wear (R627). -/
def Store.close (s : Store) : Store := { s.saveAllWear.journal none with closed := true }

/-! ## Rails -/

/-- The rails start: the sequence of Table 9.5, or HVEN and the wait for HVGOOD, which may stand already (R344, R347;
log 68). -/
def State.railsStart (s : State) : State :=
  { s with board := { s.board with rails := if s.setup.hvsrc && !s.pins.hvgood then .waitGood else .enabling
                                   hvenAt := s.clock.uptime, freeSince := none } }

/-- The board loop has been found open (R450, R455, R456). -/
def State.loopFails (s : State) (detail : Nat) : State :=
  ({ s with board := { s.board with loopOpen := true } }.dropStaged).notice srcBoardLoop detail

/-! ## Uptime and boot serial (R576, R580, R581, R610) -/

/-- The words of the two copies of the boot serial (Table 15.2). -/
def bootWord (off : Nat) : Bool := off / 8 * 8 = bootBaseA || off / 8 * 8 = bootBaseB

/-- Once uptime runs and the straps are known, the boot takes its serial: the wear margin of a collapse goes first
(R628). In fuse mode the serial stays (R611). UNCORRECTABLE of R581 is the one that the reading has raised, if it has. -/
def State.takeBoot (s : State) : State :=
  if !s.bootTaken then s
  else
    let s := { s with store := { s.store.marginFirst with closed := false } }
    if s.setup.fuseen then s
    else
      let u := s.readWords false [] bootWord
      let lost := u.store.bootCopy bootBaseA = none && u.store.bootCopy bootBaseB = none
      let b := u.store.nextBoot
      { u with boot := b, store := u.store.setBoot b }.noticeIf
        (lost && !(s.store.unread.lost.any fun o => bootWord (s.store.served o))) srcUncorrectable 5

/-- Uptime starts at 0, and with it the first rotation (R576, R609, R610, Table 14.6). -/
def State.startUptime (s : State) : State :=
  { s with clock := { s.clock with uptime := 0, running := true }, rotationAt := 0 }.takeBoot

/-! ## Opening the inlets (R164, R165, R608) -/

/-- Both courier ports go live, and letters are taken in. -/
def State.openPorts (s : State) : State :=
  let live := fun (p : Courier) => { p with live := s.pins.vio, rx := .idle }
  { s with portA := live s.portA, portB := live s.portB, start := { s.start with inletsOpen := true }
           mode := if s.mode = .coldStart then .active else s.mode }

/-- A channel at the opening: standby negated, held, or unused (Table 4.7). -/
def State.openChannel (s : State) (c : Chan) : State :=
  let x := s.chan c
  let st := if s.barred then ChanState.held
            else if !(s.inUse c) then .unused
            else if !s.pins.vio || s.limp then .offBus
            else if s.unmatched c then .matching
            else .integrating
  s.setChan c { x with st := st, settling := st = .matching || st = .integrating || st = .offBus, tryRate := 3
                       trySince := s.clock.uptime, goodFrames := 0 }

/-- The end of the checks: standby negated for channels in use; with none, the ports go live at once. -/
def State.openInlets (s : State) : State :=
  let s := (s.openChannel .a).openChannel .b
  if s.chanA.settling || s.chanB.settling then s else s.openPorts

/-! ## Recovery (R306, R470 to R477) -/

/-- R306: a box write that did not finish is completed. -/
def Store.finishBox (s : Store) : Store :=
  match s.boxWrite with
  | some (b, o) => { s.put [(boxBase + 16 * b, o)] with boxWrite := none }
  | none => s

/-- The rows of a round that the journal does not show as written back (R471). -/
def JRound.left (j : JRound) : Rect := { j.rect with y0 := j.rect.y0 + j.rowsDone }

/-- A torn rectangle has been cleaned (R474, Table 13.1). -/
def State.cleaned (s : State) (t : Torn) : State :=
  { s with torn := s.torn.filter (·.id ≠ t.id) }.notice srcCleaningDone (t.number.toNat + 65536 * t.tenant.val)

/-- The torn rectangle that a cleaning round of an earlier boot has cleaned. -/
def State.cleanedRect (s : State) (r : Rect) : State :=
  match s.torn.find? (·.rect = r) with
  | some t => s.cleaned t
  | none => s

/-- R471 and R424: one round of the journal. A cleaning round whose write-back is completed has cleaned its rectangle
(R474). -/
def State.recoverRound (s : State) (j : JRound) : State :=
  let r := s.journalRound j
  let whole := r.modeFrames + r.tailFrames
  let (store, beyond) :=
    if j.lastDone then
      (if j.rowsDone < j.rect.height then s.store.writeBack r j.left (fun _ _ => whole) else (s.store, 0))
    else s.store.book r j.rect (fun _ _ => j.frame)
  let s := { s with store := { store.journalDrop j.round with rounds := store.rounds.filter (·.round ≠ j.round) } }
  (if j.lastDone && j.cleaning then s.cleanedRect j.rect else s).saturated beyond

/-- R474: what a torn round leaves to clean. A torn cleaning round leaves the rectangle it was cleaning. DESIGN CHOICE: the
torn rectangle of a render or of a settling round, which no letter stands behind, carries letter number 0 and tenant 0, which
CLEANING_DONE then reports (13_notices.md; log 42). -/
def State.markTorn (s : State) (posts : List JPost) (j : JRound) : State :=
  if j.lastDone || j.cleaning then s
  else
    match posts.find? (·.job = j.job) with
    | some p => s.addTorn j.rect p.letter.tenant (BitVec.ofNat 16 p.letter.number)
    | none => s.addTorn j.rect 0 0

/-- R476, R477: the notice and the receipt of a torn POST; `torn`: one of its rounds is torn. -/
def State.tornPost (s : State) (torn : Bool) (p : JPost) : State :=
  let t := p.letter.tenant
  let s := s.notice srcTorn (p.letter.number + 2 ^ 16 * t.val + 2 ^ 21 * bitOf 0 (!torn))
  if (s.fuses.tenants[t]).enable && p.letter.rmode ≠ 3 then
    { s with desks := { s.desks with tornDue := s.desks.tornDue ++
        [(p.letter, s.receiptBody stTorn (p.boot.toNat % 2 ^ 24) (idKind p.letter.ident))] } }
  else s

/-- The recovery of R470, after the box write completion of R306. -/
def State.recover (s : State) : State :=
  let s := { s with store := s.store.finishBox }
  let rounds := s.store.rounds
  let posts := s.store.posts
  let s := (rounds.filter (·.lastDone)).foldl (fun s j => s.recoverRound j) s
  let s := (rounds.filter (!·.lastDone)).foldl (fun s j => s.recoverRound j) s
  let s : State := { s with store := s.store.restoreTarget (posts.flatMap fun p => p.copied) }
  let s := rounds.foldl (fun s j => s.markTorn posts j) s
  let s := (posts.filter (·.ran)).foldl (fun s p =>
    s.tornPost (rounds.any fun j => j.job = p.job && !j.lastDone && !j.cleaning && !j.settling) p) s
  { s with store := { s.store with posts := [], rounds := [], live := [] } }

/-- R393: the CRC of the waveform store; no word of the parcel is lost (Table 15.3). -/
def Store.waveSound (s : Store) : Bool :=
  let p := s.parcel
  4 ≤ p.length && p.length ≤ 2097152 && leNat p (p.length - 4) 4 = (crc32 (p.take (p.length - 4))).toNat
    && !(s.bad.any fun b => regionCode (s.served b) = 9 && s.served b < waveBase + p.length)

/-- R385, R393: the set of the new boot. -/
def State.bootWaves (s : State) : State :=
  let ok := s.store.waveSound
  let s := { s with waves := { State.reset.waves with valid := ok } }
  { s with waves := { s.waves with inForce := s.setChoice } }.noticeIf (!ok) srcWavesetInvalid 0

/-! ## WATCH and DOZE -/

/-- A NOTICE kept in a buffer or slot is withdrawn, and its INHAND bit cleared (R557). -/
def Desk.withdrawNotices (d : Desk) : Desk :=
  { d with flying := []
           sources := Vector.ofFn fun i =>
             if d.flying.any (·.source = i) then { d.sources[i] with inHand := false } else d.sources[i] }

/-- A channel in WATCH (R166); its counters stay (log 25). -/
def Channel.toWatch (c : Channel) (used : Bool) : Channel :=
  { c with st := if used then .watchListener else .unused, ctxs := [], dupRec := [], bufs := [], loading := []
           sending := none, settling := false, heldFrame := none, rollRx := none, exception := false }

/-- A courier port that loses its power (R206). -/
def Courier.powerDown (p : Courier) : Courier :=
  { p with live := false, rx := .idle, taken := 0, shifting := none, so := [], receipts := [], generals := [] }

/-- WATCH is entered (R588). -/
def State.enterWatch (s : State) : State :=
  { s with
    mode := .watch
    energy := { s.energy with charger := if s.energy.charger = .on then .pulse else s.energy.charger }
    clock := { s.clock with src := .start, onWatchOsc := true, waking := false }
    desk := s.desk.withdrawNotices
    desks := { s.desks with out := s.desks.out.filter (·.kind ≠ kNotice) }
    chanA := s.chanA.toWatch (s.inUse .a), chanB := s.chanB.toWatch (s.inUse .b)
    portA := s.portA.powerDown, portB := s.portB.powerDown
    store := s.store.saveAllWear
    idle := { s.idle with quietMs := 0, watchMs := 0 } }

/-- DOZE is entered (R595). -/
def State.enterDoze (s : State) : State :=
  let off := fun (c : Channel) => { c with st := .unpowered, heldFrame := none }
  let t := { s with mode := .doze, clock := { s.clock with running := false }
                    desk := s.desk.withdrawNotices, chanA := off s.chanA, chanB := off s.chanB
                    stamp := { s.stamp with dozing := true, held := { s with mode := .doze }.icons } }
  s.flagNotices t

/-- The channels leave off-bus or the watch listener: they integrate, with their roll calls (R168, R574). -/
def State.returnChannel (s : State) (c : Chan) : State :=
  match (s.chan c).st with
  | .offBus | .watchListener => s.rejoin c false
  | .reset | .unused | .held | .matching | .silent | .integrating | .errorActive | .errorPassive | .busOff | .dead
  | .laidUp | .unpowered => s

/-- A channel goes off-bus with its loaded buffers and a waking frame it keeps (R167, R568, R651). One that was laid up negates
standby (R165, Table 4.7). In closing time a frame in progress has ended with that, and the channel stands by (Table 11.5;
log 27). -/
def State.channelOffBus (s : State) (c : Chan) : State :=
  match (s.chan c).st with
  | .matching | .silent | .integrating | .errorActive | .errorPassive | .busOff | .dead | .laidUp | .watchListener =>
    s.setChan c { (s.chan c).cutRoll with st := if s.shutting then .reset else .offBus, sending := none,
                                           layUpEnd := none, exception := false,
                                           settling := (s.chan c).settling || (s.chan c).st = .laidUp }
  | .reset | .unused | .held | .offBus | .unpowered => s

end Sys2Proof.Machine
end

