-- ==== Sys2Proof/Machine/Supply.lean ====
section
/-! DEFINITION. Supply, reset and cold start: the meanings of VSYS_RESTORED to VIO_RETURN, and of RESET_SEQUENCE_END. -/
namespace Sys2Proof.Machine

/-- What a command answers. -/
abbrev Answer := Host.Outcome State Fault Refusal

/-- The command is over: what follows every command, then the next state. -/
def State.ends (old s : State) : Answer := .next (old.finish s)

/-- R465, R606: the cold start after OFF; in reset while RESET# is asserted. A collapse whose record reached the store
gives its own cause (Table 13.1). -/
def State.powerUp (s : State) (cause : BootCause) : State :=
  if s.pins.resetLow then { s.coldStart cause true false with mode := .inReset } else s.coldStart cause true false

/-- VSYS_RESTORED (R465, R606, R650). -/
def execVsysRestored (s : State) : Answer :=
  let s := { s with pins := { s.pins with vsys := true } }
  .next (if s.mode = .off then s.powerUp (if s.store.collapsed then .collapse else .powerUp) else s.releaseHeld)

/-- The channels fall silent at the start of closing time; a frame in progress ends first (Table 11.5; log 27). -/
def Channel.close (c : Channel) : Channel :=
  match c.st with
  | .unused | .held | .unpowered => c
  | .reset | .matching | .silent | .integrating | .errorActive | .errorPassive | .busOff | .dead | .laidUp | .offBus
  | .watchListener => if c.sending.isSome then c else { c with st := .reset }

/-- Time 0 of Table 11.5 (R430, R461); the rails follow when no round runs (R464). -/
def State.startClosing (s : State) : State :=
  { s with energy := { s.energy with charger := .stopped, weighing := false }
           chanA := s.chanA.close, chanB := s.chanB.close }

/-- A round runs, or a copy is in progress. -/
def State.mustFinish (s : State) : Bool := s.board.lanes.toList.any (·.st.started) || s.copying

/-- RESET_ASSERTED (R600, R601); a closing sequence that runs already goes on while a lane or a copy keeps it, and a fast
discharge until OFF (R656). -/
def execResetAsserted (s : State) : Answer :=
  let old := s
  let s := { s with pins := { s.pins with resetLow := true } }
  if s.mode = .off ∨ s.mode = .inReset then .next s
  else if s.discharging ∨ !s.board.allFree ∨ s.copying then
    old.ends (if s.shutting then s else { s.startClosing with resetClosing := true })
  else .next s.enterResetPin

/-- RESET_NEGATED (R603). -/
def execResetNegated (s : State) : Answer :=
  let old := s
  let s := { s with pins := { s.pins with resetLow := false } }
  if s.mode = .inReset then .next (s.coldStart s.start.cause s.start.fullCheck false)
  else if s.shutting then old.ends s
  else .next s

/-- What strap sampling latches (R31, R34, R40 to R43, R67, R71 to R74). -/
def Setup.sample (r : StrapSample) : Setup :=
  let codes : Vector (Option (Fin 16)) 13 := Vector.ofFn fun i => strapCode i.val r.coded[i]
  let bad := fun (i : Nat) => !(valueInRange i (r.values.toList.getD i none))
  { codes := codes, raw := r.coded.map (fun x => #v[x.c0, x.c1, x.c2, x.c3]),
    hvsrc := InputPin.logicStrap.reads r.hvsrc, cpmode := InputPin.logicStrap.reads r.cpmode,
    refsel := InputPin.logicStrap.reads r.refsel, fuseen := InputPin.logicStrap.reads r.fuseen,
    unsorted := codes.toList.any (·.isNone), sampled := r.values,
    live := r.values, vfail := BitVec.ofNat 6 ((List.range 6).foldl (fun n i => n + bitOf i (bad i)) 0),
    railsBarred := bad 3, stampBarred := bad 4,
    chargerBarred := valueFarOut 0 (r.values.toList.getD 0 none) || valueFarOut 1 (r.values.toList.getD 1 none) }

/-- One event for each value resistor out of range, with VFAIL as it stands after the finding (R73, Table 13.1). -/
def State.valueNotices (s : State) : State :=
  (List.range 6).foldl (fun s i =>
    if s.setup.vfail.getLsbD i then
      let v := s.setup.vfail.toNat % 2 ^ (i + 1)
      if i < 3 then s.notice srcPowerResistor v else s.notice srcPanelResistor (v / 8 * 8)
    else s) s

/-- The charger starts, unless R67 bars it or closing time has stopped it for the rest of the boot (R430). -/
def Energy.charge (e : Energy) (barred : Bool) : Energy :=
  if e.charger = Charger.stopped then e else { e with charger := if barred then .off else .on }

/-- STRAP_SAMPLING_END (R31, R34, R37, R67, R73, R74, R430). -/
def execStrapSamplingEnd (r : StrapSample) (s : State) : Answer :=
  if s.mode = .coldStart ∧ s.start.strapped = false ∧ s.start.held = false ∧ s.discharging = false then
    let u := Setup.sample r
    let t := { s with setup := u, start := { s.start with strapped := true }
                      energy := s.energy.charge u.chargerBarred }
    s.ends (t.takeBoot.valueNotices.noticeIf u.chargerBarred srcChargerOff 0)
  else .next s

/-- Subscriptions of tenants that are not enabled are cleared (R559). -/
def State.clearSubs (s : State) : State :=
  { s with desk := { s.desk with subs := Vector.ofFn fun t =>
      if (s.fuses.tenants[t]).enable then s.desk.subs[t] else Subscription.initial } }

/-- RECORD_CHECK for every record that failed (R94). DESIGN CHOICE: in a fuse fault too, which R121 gives no notice of its own
(Table 13.1, source 35; log 74). -/
def State.recordNotices (s : State) : State :=
  [RecClass.tenant, .district, .key].foldl (fun s c =>
    if s.fuses.life = .blank then s
    else s.notices srcRecordCheck ((failing s.fuses.byte c).map fun n => c.code + 256 * n)) s

/-- FUSE_ARRAY_READ (R81, R93 to R97, R118, R121); in fuse mode port A answers from here (R611; log 23). -/
def execFuseArrayRead (s : State) : Answer :=
  if s.mode = .coldStart ∧ s.start.strapped = true ∧ s.start.fused = false then
    let t := { s with fuses := s.fuses.load (s.setup.code 11), start := { s.start with fused := true } }
    let t := t.recordNotices.clearSubs
    s.ends (if t.setup.fuseen then t.openInlets else t)
  else .next s

/-- STAMP_DRIVE_START (R78, Table 14.6). DESIGN CHOICE: before the first rotation of the boot V_LCD is computed from the last die
temperature, which reset and OFF keep; R522 names no computation then (log 2). -/
def execStampDriveStart (s : State) : Answer :=
  if s.start.fused = true ∧ s.stamp.driven = false then
    s.ends { s with stamp := { s.stamp with driven := true, field := s.fieldNow, vlcd := s.vlcdAt s.dieTemp } }
  else .next s

/-- A PAUSED lane goes on (R353, R574). -/
def Lane.resume (l : Lane) : Lane :=
  match l.st with
  | .paused => { l with st := if l.modeFrames ≤ l.least then .tail else .running }
  | .free | .staged | .armed | .running | .tail | .closing => l

/-- The ports come back when the core switches after a wake (Table 14.5). -/
def State.portsBack (s : State) : State :=
  let live := fun (p : Courier) => { p with live := s.pins.vio, rx := .idle }
  { s with portA := live s.portA, portB := live s.portB }

/-- The core is clocked: not in WATCH, DOZE, reset or OFF, and not while the internal reset is held (R650) or the fast
discharge runs (R467). -/
def State.clocked (s : State) : Bool := s.awake && !s.start.held && !s.discharging

/-- The core runs on the PLL; uptime counts on REFCLK (R565, R577). -/
def State.onPll (s : State) : State :=
  { s with clock := { s.clock with src := .pll, onWatchOsc := false, waking := false } }

/-- The channels come back when VIO is there. -/
def State.channelsBack (s : State) : State := if s.pins.vio then (s.returnChannel .a).returnChannel .b else s

/-- The core runs on the limp clock (R567). -/
def State.toLimp (s : State) : State :=
  { s with clock := { s.clock with src := .limp, onWatchOsc := true, waking := false } }.notice srcLimpClock 1

/-- A weigh-in in progress is abandoned (R571). -/
def Energy.abandon (e : Energy) : Energy :=
  { e with weighing := false, charger := if e.charger = .paused then .on else e.charger }

/-- PLL_LOCK_TIMEOUT: a REFCLK loss, so that a weigh-in is abandoned (R571); the boot or the wake completes on the limp clock
(R591, R610). -/
def execPllLockTimeout (s : State) : Answer :=
  if s.clocked = false ∨ s.clock.src ≠ .start then .next s
  else if s.clock.waking then
    let t := (s.channelOffBus .a).channelOffBus .b
    s.ends ({ t with chanA := { t.chanA with heldFrame := none }, chanB := { t.chanB with heldFrame := none }
                     energy := t.energy.abandon }.portsBack).toLimp
  else if s.clock.running = false then s.ends { s.startUptime with energy := s.startUptime.energy.abandon }.toLimp
  else .next s

/-- The settling blocks are examined, and the inlets open unless the node shuts down meanwhile (R417, R461, R608). -/
def State.checksOver (s : State) : State :=
  let s := s.examineAll
  if s.shutting then s else s.openInlets

/-- Words of the quick check but the waveform store's: box table, journal, counters and boot serial, remap table and wear
counts, latest readings (R605). -/
def quickWord : Nat → Bool := inRegions [4, 5, 6, 7, 8]

/-- Words of every page that the quick check does not read (R605): the planes and the ledger, and the spare pages. -/
def fullWord (off : Nat) : Bool := !(quickWord off) && !(inRegions [9] off)

/-- The quick check: the remap table first (R631), the waveform store with the set of the boot (R393), what the other
words bring, and the recovery (R306, R470, R637). -/
def State.quickCheck (s : State) (found : Findings) : State :=
  let table := fun (off : Nat) => pageOf off = remapPageA || pageOf off = remapPageB
  let s := s.takeFindings false [] table found
  let s := { s with store := s.store.takeRemap }
  let s := (s.readWords false [] (inRegions [9])).bootWaves
  (s.readWords false [] (fun off => quickWord off && !(table off))).recover

/-- QUICK_CHECK_END (R306, R393, R470, R607, R620 to R622, R637); without a full check the settling blocks are examined
and the inlets open here (R605). -/
def execQuickCheckEnd (found : Findings) (s : State) : Answer :=
  if s.mode = .coldStart ∧ s.clock.running = true ∧ s.start.fused = true ∧ s.start.quickChecked = false
      ∧ s.setup.fuseen = false ∧ s.discharging = false then
    let t := s.quickCheck found
    let t := { t with start := { t.start with quickChecked := true } }
    s.ends (if s.start.fullCheck then t else t.checksOver).announce
  else .next s

/-- FULL_CHECK_END (R417, R474, R620 to R622, R638). -/
def execFullCheckEnd (found : Findings) (s : State) : Answer :=
  if s.mode = .coldStart ∧ s.start.quickChecked = true ∧ s.start.fullCheck = true ∧ s.chanA.st = .reset
      ∧ s.chanB.st = .reset ∧ s.discharging = false then
    s.ends (s.takeFindings false [] fullWord found).checksOver.announce
  else .next s

/-- STANDBY_SETTLE_END (R165, R608); a node that shuts down opens no port any more (R461). -/
def execStandbySettleEnd (c : Chan) (s : State) : Answer :=
  if (s.chan c).settling then
    let t := s.setChan c { s.chan c with settling := false }
    s.ends (if t.start.inletsOpen || t.shutting then t else t.openPorts)
  else .next s

/-- A running round pauses (R353, R569). -/
def Lane.pause (l : Lane) : Lane :=
  match l.st with
  | .running | .tail => { l with st := .paused, prev := l.got }
  | .free | .staged | .armed | .paused | .closing => l

/-- The running rounds pause. A panel frame in progress is followed by one more scan, of 0b00 over the rows of the RUNNING
and TAIL lanes, which no round counts (R569); `h`: rows of the board. -/
def Board.pauseAll (b : Board) (h : Nat) : Board :=
  let rows := ((List.range h).filter fun y => b.lanes.toList.any fun l =>
    (l.st = .running || l.st = .tail) && l.rect.y0 ≤ y && y ≤ l.rect.y1).length
  let p := { b with lanes := b.lanes.map Lane.pause, framing := false }
  if b.framing then { p with blank := true, driven := rows, skipped := h - rows } else p

/-- REFCLK_LOSS (R566 to R571, Table 13.1 source 6). Before the core runs on the PLL it restarts the 2 ms of R565 (R575), and
a weigh-in in progress is abandoned all the same (R571). -/
def execRefclkLoss (s : State) : Answer :=
  if s.clocked = false ∨ s.clock.src = .limp then .next s
  else if s.clock.src = .start then s.ends { s with energy := s.energy.abandon }
  else
    let t := (s.channelOffBus .a).channelOffBus .b
    s.ends { t with energy := t.energy.abandon, board := t.board.pauseAll s.boardWH.2 }.toLimp.announce

/-- INPUT_LOSS (R459, R460, R461); in reset the node stays there (R598), and the cold start after it waits for VSYS
(R465). -/
def execInputLoss (s : State) : Answer :=
  let old := s
  let s := { s with pins := { s.pins with vsys := false } }
  match s.mode with
  | .off | .inReset => .next s
  | .watch | .doze => .next s.enterOff
  | .coldStart | .active | .quiet =>
    if s.closing ∨ s.discharging then .next s else old.ends { s.startClosing with closing := true }

/-- The closing record (R464, R600), once a parcel in writing is cut. -/
def State.closeStore (s : State) : State := { s with store := s.cutParcel.close }

/-- CLOSING_TIME_END (R464). -/
def execClosingTimeEnd (s : State) : Answer :=
  if s.closing = true ∧ s.discharging = false ∧ s.mustFinish = false then .next s.closeStore.enterOff else .next s

/-- FAST_DISCHARGE_END (R467, R598). -/
def execFastDischargeEnd (s : State) : Answer :=
  if s.discharging then .next { s.enterOff with fell := true } else .next s

/-- COLLAPSE_RESTART (R468). -/
def execCollapseRestart (s : State) : Answer :=
  if s.mode = .off ∧ s.pins.vsys = true ∧ s.fell = true then .next (s.powerUp .collapse) else .next s

/-- VIO_LOSS (R651, Table 13.1 source 6). A transaction that it cuts counts nothing, nor does the CS# rise after it (log 76). -/
def execVioLoss (s : State) : Answer :=
  let old := s
  let s := { s with pins := { s.pins with vio := false } }
  if s.mode = .off then .next s
  else
    let stop := fun (p : Courier) => { p with live := false, rx := .idle, shifting := none, so := [] }
    let s := (s.channelOffBus .a).channelOffBus .b
    old.ends { s with portA := stop s.portA, portB := stop s.portB }.announce

/-- VIO_RETURN (R650, R651). -/
def execVioReturn (s : State) : Answer :=
  let old := s
  let s := { s with pins := { s.pins with vio := true } }
  if s.start.held then .next s.releaseHeld
  else if s.awake ∧ s.clock.waking = false then
    let s := if s.limp then s else s.channelsBack
    old.ends (if s.start.inletsOpen then s.portsBack else s)
  else if s.mode = .watch then old.ends ((s.returnChannel .a).returnChannel .b)
  else .next s

/-- RESET_SEQUENCE_END (R600, R603). -/
def execResetSequenceEnd (s : State) : Answer :=
  if s.resetClosing = true ∧ s.closing = false ∧ s.discharging = false ∧ s.mustFinish = false then
    let t := s.closeStore.resetPin
    .next (if s.pins.resetLow then t else t.coldStart .reset false false)
  else .next s

end Sys2Proof.Machine
end

