-- ==== Sys2Proof/Machine/Rails.lean ====
section
/-! DEFINITION. High-voltage rails, crack loops, value resistors, charger and die sensor: the meanings of HVGOOD_ASSERTED to
DIE_HOT, and of RAIL_DISABLE_END. -/
namespace Sys2Proof.Machine

/-- The board has become disabled: the earmarks of STAGED rounds are dropped, and no POST asks any more (R447, R450). -/
def State.disabledNow (s : State) : State :=
  let s := s.dropStaged
  (s.desks.jobs.filter fun j => j.isPost && j.asked.isSome && j.earmark.isNone).foldl (fun s j => s.holdDisabled j) s

/-- HVGOOD_ASSERTED (R347). -/
def execHvgoodAsserted (s : State) : Answer :=
  let old := s
  let s := { s with pins := { s.pins with hvgood := true } }
  if s.board.rails = .waitGood then old.ends { s with board := { s.board with rails := .enabling } } else .next s

/-- HVGOOD_TIMEOUT (R348, R450). -/
def execHvgoodTimeout (s : State) : Answer :=
  if s.board.rails = .waitGood ∧ s.pins.hvgood = false ∧ s.board.hvenAt + 50 ≤ s.clock.uptime then
    let t := { s with board := { s.board with rails := .off, goodTimeout := some s.clock.uptime, restoredOwed := true } }
    s.ends (t.disabledNow.notice srcHvgoodTimeout 0)
  else .next s

/-- RAILS_IN_REGULATION (R346, Table 9.5). -/
def execRailsInRegulation (s : State) : Answer :=
  if s.board.rails = .enabling then
    let t := { s with board := { s.board with
      rails := .on, goodTimeout := none, restoredOwed := false } }
    s.ends (t.noticeIf s.board.restoredOwed srcRailsRestored 0)
  else .next s

/-- RAIL_OFF_TIMER (R345). -/
def execRailOffTimer (s : State) : Answer :=
  let due := match s.board.freeSince with
    | some t => decide (t + 500 ≤ s.clock.uptime)
    | none => false
  if s.board.rails = .on ∧ s.board.allFree = true ∧ due = true then
    s.ends { s with board := { s.board with rails := .disabling, freeSince := none } }
  else .next s

/-- RAIL_DISABLE_END (R345, Table 9.6). -/
def execRailDisableEnd (s : State) : Answer :=
  if s.board.rails = .disabling then s.ends { s with board := { s.board with rails := .off } } else .next s

/-- A loop above 200 Ω reads open (R453). DESIGN CHOICE: between 180 and 220 Ω a part may read either way (Table 17.13,
R674), and this one reads by the nominal limit (log 58). -/
def loopReadsOpen (ohms : Nat) : Bool := 200 < ohms

/-- BOARD_LOOP_CHECK (R454, R456); without a board the loop is never measured (R49, R50). DESIGN CHOICE: the board counts as
disabled from the open reading on, since R450 drops the earmarks of rounds that are still STAGED (11_energy.md:350), and not
only once the last lane is FREE (R456; log 41). -/
def execBoardLoopCheck (ohms : Nat) (s : State) : Answer :=
  if s.railsEnabled = true ∧ s.boardSize.isSome = true ∧ s.board.loopOpen = false ∧ loopReadsOpen ohms = true then
    s.ends (s.loopFails 1).disabledNow
  else .next s

/-- STAMP_LOOP_CHECK (R457). DESIGN CHOICE: the stamp loop is checked in WATCH too, whose uptime runs on, though Table 16.4 has
CKSA at high impedance there and the level of the pin shows no measuring (log 59). -/
def execStampLoopCheck (ohms : Nat) (s : State) : Answer :=
  if (s.awake = true ∨ s.mode = .watch) ∧ s.stamp.loopOpen = false ∧ loopReadsOpen ohms = true then
    s.ends ({ s with stamp := { s.stamp with loopOpen := true } }.notice srcStampLoop 0)
  else .next s

/-- Place of a charger resistor and of a live one in the order of R79. -/
def chargerIndex : ChargerResistor → Nat
  | .vhset => 0
  | .ichg => 1
def liveIndex : LiveResistor → Nat
  | .vhset => 0
  | .ichg => 1
  | .vcomset => 3
  | .vlcdset => 4
  | .vlcdtc => 5

/-- A live resistance. -/
def Setup.setLive (u : Setup) (i : Nat) (ohms : Option Nat) : Setup :=
  { u with live := Vector.ofFn fun k => if k.val = i then ohms else u.live[k] }

/-- CHARGER_RESISTOR_FAULT (R69, R73, R79, R430); in DOZE the stamp stays as it is (R524). In reset, where the charger may run
on, nothing but the charger acts (R602; log 58). -/
def execChargerResistorFault (r : ChargerResistor) (ohms : Option Nat) (s : State) : Answer :=
  if ¬((s.energy.charger = .on ∨ s.energy.charger = .paused ∨ s.energy.charger = .pulse)
      ∧ valueFarOut (chargerIndex r) ohms = true) then .next s
  else if s.mode = .inReset then .next { s with energy := { s.energy with charger := .stopped } }
  else
    let u := s.setup.setLive (chargerIndex r) ohms
    let u := { u with vfail := u.vfail ||| BitVec.ofNat 6 (2 ^ (chargerIndex r)), chargerBarred := true }
    let t := { s with setup := u, energy := { s.energy with charger := .stopped } }
    let t := (t.notice srcPowerResistor (u.vfail.toNat % 8)).notice srcChargerOff 1
    s.ends (if t.stamp.dozing then t else { t with stamp := { t.stamp with field := t.fieldNow } })

/-- VALUE_RESISTOR_DRIFT (R68, R681): the output follows, clamped. -/
def execValueResistorDrift (r : LiveResistor) (ohms : Option Nat) (s : State) : Answer :=
  if s.mode ≠ .off ∧ s.mode ≠ .inReset ∧ s.start.strapped = true then
    let t := { s with setup := s.setup.setLive (liveIndex r) ohms }
    .next { t with stamp := { t.stamp with vlcd := if 4 ≤ (liveIndex r) then t.vlcdAt t.dieTemp else t.stamp.vlcd } }
  else .next s

/-- CHARGER_PULSE (R583): VHOLD, 2 % or more below its target, is restored to it. DESIGN CHOICE: Table 17.5 lets the pulse
come anywhere from 98.5 % down to 97.5 % of the target, and this part takes R583's 98 % (log 58). -/
def execChargerPulse (mv : Nat) (s : State) : Answer :=
  if s.energy.charger = .pulse ∧ 100 * mv ≤ 98 * s.vholdTarget then
    .next { s with energy := { s.energy with vhold := 10 * s.vholdTarget } }
  else .next s

/-- Warning limit of the die sensor in 1/16 °C (R676). -/
def dieLimit : Int := if Config.variantX then 16 * 115 else 16 * 100

/-- DIE_HOT (R676). -/
def execDieHot (temp : Int) (s : State) : Answer :=
  if s.mode = .off ∨ s.mode = .inReset ∨ s.mode = .doze then .next s
  else if s.dieHot = false ∧ dieLimit < temp then
    s.ends ({ s with dieHot := true }.notice srcDieHot (wholeDegrees temp + 256))
  else if s.dieHot = true ∧ temp ≤ dieLimit - 16 * 5 then
    s.ends ({ s with dieHot := false }.notice srcDieHot (wholeDegrees temp))
  else .next s

end Sys2Proof.Machine
end

