-- ==== Sys2Proof/Machine/Modes.lean ====
section
/-! DEFINITION. Power modes: the meanings of QUIET_ENTRY to WATCH_LISTENER_ACCEPT; and fuse mode: LOAD to BAD_COMMAND. -/
namespace Sys2Proof.Machine

/-- QUIET_ENTRY (R585). -/
def execQuietEntry (s : State) : Answer :=
  if s.quietOk = true ∧ 100 ≤ s.idle.quietMs then
    s.ends { s with mode := .quiet, idle := { s.idle with quietMs := 0 } }
  else .next s

/-- The node dozes: the events of the entry stay in the latches (R556). -/
def State.dozes (s : State) : State :=
  let t := s.enterDoze
  { t with desk := t.desk.turn }

/-- WATCH_ENTRY (R587, R588); with DOZE# asserted the node goes on to DOZE (R594), and a flag that WATCH has changed and a
page that the counts written have worn out (R633, R634) have their events before. WAKE# asserted begins the 10 s anew (log 25). -/
def execWatchEntry (wake : Bool) (s : State) : Answer :=
  let old := s
  let s := { s with pins := { s.pins with wakeLow := wake } }
  if wake then .next { s with idle := { s.idle with watchMs := 0 } }
  else if s.mode = .quiet ∧ s.watchOk = true ∧ 10000 ≤ s.idle.watchMs then
    (if s.pins.dozeLow then .next (s.storeNotices (s.flagNotices s.enterWatch)).dozes else old.ends s.enterWatch)
  else .next s

/-- WAKE_ASSERTED (R590, R596). -/
def execWakeAsserted (s : State) : Answer :=
  let old := s
  let s := { s with pins := { s.pins with wakeLow := true }, idle := { s.idle with watchMs := 0 } }
  if s.mode = .watch then old.ends (s.wake .quiet)
  else if s.mode = .doze then .next (s.coldStart .doze false true)
  else .next s

/-- DOZE_ASSERTED (R594, R595). -/
def execDozeAsserted (wake : Bool) (s : State) : Answer :=
  let s := { s with pins := { s.pins with dozeLow := true, wakeLow := wake } }
  if s.mode = .watch ∧ wake = false then .next s.dozes else .next s

/-- DOZE_NEGATED (R596). -/
def execDozeNegated (s : State) : Answer :=
  let s := { s with pins := { s.pins with dozeLow := false } }
  if s.mode = .doze then .next (s.coldStart .doze false true) else .next s

/-- A frame that the watch listener keeps (R166, R167). DESIGN CHOICE: what filter 1 takes tells it nothing of a duplicate
(R172), and a frame that filter 0 only counts, ROUTE 0b11, is counted nowhere in WATCH (Table 4.5, R166; log 61). -/
def State.watchAccepts (s : State) (f : Frame) : Bool :=
  f.ext && !f.remote && !(f.fd && s.classical) && !f.own
    && (match s.filter f.ident with
        | .accept _ _ => true
        | .count | .duplicate | .rollcall | .refuse => false)

/-- WATCH_LISTENER_ACCEPT (R167, R590, R592): the waking frame is kept. Once the node wakes, only the other channel's
copy of that frame is kept too, and any other frame is lost (R593; log 28). -/
def execWatchListenerAccept (c : Chan) (f : Frame) (s : State) : Answer :=
  let kept := s.setChan c { s.chan c with heldFrame := some f }
  if (s.chan c).st = .watchListener ∧ (s.chan c).heldFrame = none ∧ s.watchAccepts f = true then
    if s.mode = .watch then s.ends (kept.wake .quiet)
    else if s.clock.waking = true ∧ (s.chan (Chan.other c)).heldFrame = some f then s.ends kept
    else .next s
  else .next s

/-! ## Fuse mode (Table 3.8) -/

/-- LOAD (R101). -/
def execLoad (payload : List Byte) (s : State) : Answer :=
  if s.fuseReady then
    if payload.length = 2080 then
      .next { s with fuses := { s.fuses with image := some payload }.respond 0x4C 0 [] 0 }
    else .next { s with fuses := s.fuses.respond 0x4C 1 [] 1 }
  else .next s

/-- CHECK (R101). -/
def execCheck (e : FuseEnv) (s : State) : Answer :=
  if s.fuseReady then
    let r := s.fuses.checkResult e
    .next { s with fuses := s.fuses.respond 0x43 r [] r }
  else .next s

/-- The arming octets of BURN (Table 3.8). -/
def armingOctets : List Byte := [0x42, 0x55, 0x52, 0x4E]

/-- BURN (R102). -/
def execBurn (arming : List Byte) (e : FuseEnv) (s : State) : Answer :=
  if s.fuseReady then
    if arming = armingOctets then
      let r := s.fuses.checkResult e
      if r = 0 then
        .next { s with fuses := { s.fuses with burning := s.fuses.image.map fun m => ⟨burnList s.fuses.byte m⟩
                                               response := none } }
      else .next { s with fuses := s.fuses.respond 0x42 r [] r }
    else .next { s with fuses := s.fuses.respond 0x42 1 [] 1 }
  else .next s

/-- BURN_END (R103). -/
def execBurnEnd (stop : Option (Nat × Bool)) (s : State) : Answer :=
  match s.fuses.burning with
  | none => .next s
  | some b =>
    let f := { s.fuses with burning := none }
    match stop with
    | none => .next { s with fuses := (b.bits.foldl (fun f x => f.burn x) f).respond 0x42 0 [] 0 }
    | some (n, took) =>
      let done := b.bits.take n ++ (if took then (b.bits.drop n).take 1 else [])
      .next { s with fuses := (done.foldl (fun f x => f.burn x) f).respond 0x42 0x13 [] 0x13 }

/-- READ (R92). -/
def execRead (s : State) : Answer :=
  if s.fuseReady then .next { s with fuses := s.fuses.respond 0x52 0 s.fuses.readOut 0 } else .next s

/-- STATE (Table 3.8). -/
def execState (e : FuseEnv) (s : State) : Answer :=
  if s.fuseReady then
    let a := s.fuses.byte
    let out := leBytes (lifeOf a).code 1 ++ leBytes (sessions a) 1 ++ leBytes e.vqps 2
      ++ [BitVec.ofInt 8 e.temp, s.fuses.lastResult]
    .next { s with fuses := s.fuses.respond 0x53 0 out s.fuses.lastResult }
  else .next s

/-- BAD_COMMAND (R100). -/
def execBadCommand (code : Byte) (s : State) : Answer :=
  if s.fuseReady then .next { s with fuses := s.fuses.respond code 1 [] 1 } else .next s

end Sys2Proof.Machine
end

