-- ==== Sys2Proof/Machine/BusCmds.lean ====
section
/-! DEFINITION. The bus channels: the meanings of BUS_FRAME_RECEIVED to CONTEXT_INACTIVITY. -/
namespace Sys2Proof.Machine

/-- A channel takes frames in now: its state receives, and the 50 µs of R165 are over. -/
def Channel.hears (x : Channel) : Bool := x.st.receives && !x.settling

/-- REC falls at a correct reception by a channel that counts (R155). -/
def State.goodReception (s : State) (c : Chan) : State :=
  let x := s.chan c
  if x.st.transmits then (s.setChan c x.recDown).errorState c x.tec x.recErr else s

/-- After its frame has ended, a channel of a node that shuts down falls silent (Table 11.5). -/
def State.quietChan (s : State) (c : Chan) : State :=
  let x := { s.chan c with sending := none }
  s.setChan c (if s.shutting then x.close else x)

/-- In a node that shuts down what ends a channel's frame silences it as well. -/
def State.hushed (s : State) (c : Chan) : State := if s.shutting then s.quietChan c else s

/-- BUS_FRAME_RECEIVED (R123, R127, R135, R144 to R149, R213 to R226). -/
def execBusFrameReceived (c : Chan) (f : Frame) (s : State) : Answer :=
  if (s.chan c).hears = false then .next s
  else if f.fd && s.classical then s.ends ((s.protocolException c).hushed c)
  else s.ends (((s.goodReception c).sortFrame c f).matchFrame c)

/-- LETTER_COMPLETION (R225, R229, R684, R138, R257); no letter is handed over once the node shuts down (R461). -/
def execLetterCompletion (c : Chan) (tie : Bool) (s : State) : Answer :=
  match (if s.shutting then none else (s.chan c).completeCtx) with
  | none => .next s
  | some x =>
    let t := s.setChan c { s.chan c with ctxs := Channel.dropFirst (·.complete) (s.chan c).ctxs }
    s.ends ((t.newCycle tie).judgeBus c x)

/-- TEC rises by 8 and the frame in progress is given up, to be sent again (R153, R155). -/
def State.sendError (s : State) (c : Chan) : State :=
  let x := s.chan c
  ((s.setChan c { x with tec := x.tec + 8, sending := none }).errorState c x.tec x.recErr).quietChan c

/-- REC rises (R155). -/
def State.receiveError (s : State) (c : Chan) (n : Nat) : State :=
  let x := s.chan c
  (s.setChan c { x with recErr := x.recErr + n }).errorState c x.tec x.recErr

/-- The channel sends its own ROLLCALL in a roll-call window, be it one kept from an earlier window (R172; log 35). -/
def Channel.sendsRoll (x : Channel) : Bool :=
  x.roll.inWindow && x.bufs.any fun b => some b.seq = x.sending && idKind b.ident = kRollcall

/-- A bit error in the data field of the own ROLLCALL: the second one in a window shows a duplicate (R172). -/
def State.rollError (s : State) (c : Chan) : State :=
  let x := s.chan c
  let t := (s.setChan c { x with roll := { x.roll with errors := x.roll.errors + 1 } }).sendError c
  if 2 ≤ x.roll.errors + 1 then t.duplicateFound c else t

/-- Transmitter delay compensation runs on this channel (R131, Table 4.3). -/
def State.tdcOn (s : State) (c : Chan) : Bool :=
  match (s.timing (s.chan c)).2 with
  | some t => t.tdc
  | none => false

/-- BUS_ERROR (R132, R134, R155, R163, R172). -/
def execBusError (c : Chan) (e : BusError) (s : State) : Answer :=
  let x := s.chan c
  if x.st = .matching then
    (if x.settling then .next s else s.ends (s.setChan c (x.nextRate s.clock.uptime)))
  else if x.st.transmits then
    match e with
    | .receiver => s.ends (s.receiveError c 1)
    | .receiverDominant => s.ends (s.receiveError c 8)
    | .transmitter rollData => s.ends (if rollData && x.sendsRoll then s.rollError c else s.sendError c)
    | .transmitterDelay ns => if s.tdcOn c ∧ 1275 < ns then s.ends (s.sendError c) else .next s
    | .uncounted => s.ends (s.quietChan c)
  else .next s

/-- A channel that can transmit again starts its roll call (R168 to R170). -/
def Channel.startRoll (x : Channel) (nonce : BitVec 32) (now : Nat) : Channel :=
  { x with roll := { x.roll with nonce := some nonce, delayEnd := some (100 * now + nonce.toNat % 1024), letter := none
                                 windowEnd := none, errors := 0 } }

/-- A channel is back on the bus with both counts at zero: error-active with its roll call and the notice of R156, or
Silent (R157, R159, R160, R688). -/
def State.backOnBus (s : State) (c : Chan) (nonce : BitVec 32) : State :=
  let x := { s.chan c with tec := 0, recErr := 0, exception := false, returning := false }
  if s.silentForBoot then s.setChan c { x with st := .silent }
  else
    let t := s.setChan c ({ x with st := .errorActive, shut := false }.startRoll nonce s.clock.uptime)
    if (s.chan c).returning then t.chanNotice c else t

/-- BUS_OFF_RECOVERY_END (R157, R163, R688). -/
def execBusOffRecoveryEnd (c : Chan) (nonce : BitVec 32) (s : State) : Answer :=
  if (s.chan c).st = .busOff then s.ends (s.backOnBus c nonce) else .next s

/-- STUCK_DOMINANT (R158, R160, R162, Table 11.5). -/
def execStuckDominant (c : Chan) (s : State) : Answer :=
  if (s.chan c).st.listens ∧ (s.chan c).settling = false then s.ends ((s.enterDead c).hushed c) else .next s

/-- DEAD_RECOVERY (R159). -/
def execDeadRecovery (c : Chan) (s : State) : Answer :=
  if (s.chan c).st = .dead then s.ends (s.rejoin c false) else .next s

/-- LAY_UP_END (R160, R161, R165). -/
def execLayUpEnd (c : Chan) (dominant : Bool) (s : State) : Answer :=
  let due := match (s.chan c).layUpEnd with
    | some t => decide (t ≤ s.clock.uptime)
    | none => false
  if (s.chan c).st = .laidUp ∧ due = true then
    let t := s.setChan c { s.chan c with layUpEnd := none }
    s.ends (if dominant then t.enterDead c else t.rejoin c true)
  else .next s

/-- A channel that integrated after a protocol exception goes back to the error state its counts give (R127, R155). -/
def State.afterException (s : State) (c : Chan) : State :=
  let x := s.chan c
  let st := if s.silentForBoot then ChanState.silent
            else if 128 ≤ x.tec ∨ 128 ≤ x.recErr then .errorPassive
            else .errorActive
  s.setChan c { x with st := st, exception := false }

/-- The waking frame that the listener kept is passed to a frame buffer (R592). -/
def State.passHeld (s : State) (c : Chan) : State :=
  match (s.chan c).heldFrame with
  | some f => (s.setChan c { s.chan c with heldFrame := none }).takeFrame c f
  | none => s

/-- INTEGRATION_END (R45, R168, R592, R688). -/
def execIntegrationEnd (c : Chan) (nonce : BitVec 32) (s : State) : Answer :=
  let x := s.chan c
  if x.st = .integrating ∧ x.settling = false then
    s.ends (if x.exception then s.afterException c else ((s.backOnBus c nonce).passHeld c).announce)
  else .next s

/-- The ROLLCALL letter without CHECK (R169, R231, Table 6.22); it is never sealed (R116). -/
def State.rollOctets (s : State) (nonce : BitVec 32) : List Byte :=
  leBytes 1 1 ++ leBytes 0 3 ++ leBytes 8 4 ++ leBytes nonce.toNat 4
    ++ [BitVec.ofNat 8 stepping, BitVec.ofNat 8 (s.setup.code 4), BitVec.ofNat 8 (s.setup.code 6),
        BitVec.ofNat 8 (s.setup.code 7)]

/-- The ROLLCALL's identifier (R169). -/
def State.rollIdent (s : State) : BitVec 29 := mkIdent 7 7 2 s.own 0 kRollcall 0

/-- ROLLCALL_DELAY_END (R169, R170, R689). -/
def execRollcallDelayEnd (c : Chan) (s : State) : Answer :=
  let x := s.chan c
  match x.roll.delayEnd, x.roll.nonce with
  | some d, some nonce =>
    if d < 100 * (s.clock.uptime + 1) ∧ x.st.transmits = true then
      let y := { x with roll := { x.roll with delayEnd := none, letter := some s.desks.nextOut } }
      let y := y.load { letter := s.desks.nextOut, ident := s.rollIdent, cls := .general,
                        rest := fragments (!s.classical) (s.rollOctets nonce), isRollcall := true }
      s.ends { s.setChan c y with desks := { s.desks with nextOut := s.desks.nextOut + 1 } }
    else .next s
  | _, _ => .next s

/-- ROLLCALL_WINDOW_END (R171); once every roll call of the boot is over, COLD_START and the TORN receipts follow. -/
def execRollcallWindowEnd (c : Chan) (s : State) : Answer :=
  let x := s.chan c
  match x.roll.windowEnd with
  | some t =>
    if t ≤ s.clock.uptime then
      s.ends (s.setChan c { x with roll := { x.roll with windowEnd := none, errors := 0, rolled := true } }).announce
    else .next s
  | none => .next s

/-- RATE_MATCH_TIMEOUT (R134). -/
def execRateMatchTimeout (c : Chan) (s : State) : Answer :=
  let x := s.chan c
  if x.st = .matching ∧ x.settling = false ∧ x.trySince + 100 ≤ s.clock.uptime then
    s.ends (s.setChan c (x.nextRate s.clock.uptime))
  else .next s

/-- The buffers a channel may send now: in its roll-call window only the ROLLCALL's (R171). -/
def Channel.sendable (x : Channel) : List TxBuf :=
  if x.roll.inWindow then x.bufs.filter fun b => idKind b.ident = kRollcall else x.bufs

/-- R151: the lowest identifier, and among equals the buffer loaded first. -/
def selectBuf : List TxBuf → Option TxBuf
  | [] => none
  | b :: r =>
    match selectBuf r with
    | none => some b
    | some d => if d.ident.toNat < b.ident.toNat ∨ (d.ident = b.ident ∧ d.seq < b.seq) then some d else some b

/-- FRAME_START (R151, R152, R171). -/
def execFrameStart (c : Chan) (s : State) : Answer :=
  let x := s.chan c
  if x.st.transmits = true ∧ x.sending = none ∧ s.shutting = false then
    match selectBuf x.sendable with
    | some b => s.ends (s.setChan c { x with sending := some b.seq })
    | none => .next s
  else .next s

/-- ARBITRATION_LOST (R152, R153). -/
def execArbitrationLost (c : Chan) (s : State) : Answer :=
  if (s.chan c).sending.isSome then s.ends (s.quietChan c) else .next s

/-- What the last frame of a letter brings: a NOTICE's COUNT is subtracted (R530), the 40 ms of the channel's own ROLLCALL
begin (R171). -/
def State.letterSent (s : State) (c : Chan) (b : TxBuf) : State :=
  if idKind b.ident = kNotice then { s with desk := s.desk.delivered b.letter (decide (c = .a)) (decide (c = .b)) none }
  else
    let x := s.chan c
    if x.roll.letter = some b.letter then
      s.setChan c { x with roll := { x.roll with letter := none, windowEnd := some (s.clock.uptime + 40) } }
    else s

/-- TX_FRAME_END (R150, R154, R155, R530). -/
def execTxFrameEnd (c : Chan) (s : State) : Answer :=
  let x := s.chan c
  match x.bufs.find? (fun b => some b.seq = x.sending) with
  | none => .next s
  | some b =>
    let y := { x with bufs := x.bufs.filter (fun d => d.seq ≠ b.seq), tec := x.tec - 1, sending := none }
    let t := s.setChan c y.refill
    let t := if b.isLast then t.letterSent c b else t
    s.ends ((t.errorState c x.tec x.recErr).quietChan c)

/-- CONTEXT_INACTIVITY (R222, R223, R226). -/
def execContextInactivity (c : Chan) (key : CtxKey) (s : State) : Answer :=
  match (s.chan c).openCtx key with
  | none => .next s
  | some x =>
    if x.lastAt + 500 ≤ s.clock.uptime then
      let t := s.setChan c ((s.chan c).dropCtx key)
      s.ends (if x.dropping then t else t.refuseCtx c x (malformed (if x.lost then 1 else 9)))
    else .next s

end Sys2Proof.Machine
end

