-- ==== Sys2Proof/Machine/CourierCmds.lean ====
section
/-! DEFINITION. The courier ports: the meanings of CS_FALL to CS_RISE, and the ATTN# outputs. -/
namespace Sys2Proof.Machine

/-- CPx_ATTN# is asserted: it is negated throughout closing time (R202, Tables 3.8, 11.5). -/
def State.attnLow (s : State) (p : Port) : Bool := !s.shutting && s.attention p

/-- The letter that a CS# fall loads (R196). -/
def Courier.oldest (x : Courier) : Option OutLetter :=
  match x.receipts with
  | o :: _ => some o
  | [] => x.generals.head?

/-- CS_FALL on a live port: the shifter takes the oldest letter, or nothing (R196 to R198). -/
def State.loadShifter (s : State) (p : Port) : State :=
  let x := s.port p
  let o := x.oldest
  s.setPort p { x with rx := .fallen, taken := 0, shifting := o.map (·.id)
                       so := match o with
                         | some o => s.envelope o
                         | none => [] }

/-- CS_FALL in fuse mode: the shifter takes the response; port B is ignored (Table 3.8). -/
def State.loadResponse (s : State) (p : Port) : State :=
  let x := { s.port p with rx := .ignoring, taken := 0, shifting := none }
  match p with
  | .a => { s with portA := { x with so := s.fuses.response.getD [] }, fuses := { s.fuses with response := none } }
  | .b => { s with portB := { x with so := [] } }

/-- CS_FALL (R196, R197, R206, R608, Table 11.5). DESIGN CHOICE: a transaction that begins in closing time shifts nothing, SO
stays at high impedance, and neither its SYNC octet nor its tearing or damage is counted (R198; log 45). -/
def execCsFall (p : Port) (s : State) : Answer :=
  let x := s.port p
  if x.csLow then .next s
  else
    let t := s.setPort p { x with csLow := true, rx := .idle, taken := 0, shifting := none, so := [] }
    if x.live = false ∨ s.shutting = true then .next t
    else s.ends (if s.setup.fuseen then t.loadResponse p else t.loadShifter p)

/-- COURIER_SYNC (R183, R184). -/
def execCourierSync (p : Port) (sync : Byte) (s : State) : Answer :=
  let x := s.port p
  if x.rx ≠ .fallen then .next s
  else if sync = 0xA5 then s.ends (s.setPort p { x with rx := .synced, taken := 1 })
  else if sync = 0x00 ∨ sync = 0xFF then s.ends (s.setPort p { x with rx := .ignoring, taken := 1 })
  else s.ends ((s.setPort p { x with rx := .ignoring, taken := 1, badSync := bump16 x.badSync }).courierFault p 4)

/-- COURIER_LENGTH (R189, R193, R267 to R269, R691). -/
def execCourierLength (p : Port) (hdr : Vector Byte 11) (s : State) : Answer :=
  let x := s.port p
  if x.rx ≠ .synced then .next s
  else
    match (if s.portHeld p then none else s.bound p) with
    | none => s.ends (s.setPort p { x with rx := .lengthKnown hdr 0 false, taken := 12 })
    | some t =>
      let n := granules (leNat hdr.toList 7 4)
      if s.shelfTakes t n then s.ends (s.setPort p { x with rx := .lengthKnown hdr n false, taken := 12 })
      else
        let y := { x with rx := .lengthKnown hdr 0 true, taken := 12, shelfRefusals := bump16 x.shelfRefusals }
        s.ends (((s.setPort p y).notice srcShelfFull t.val).courierFault p 5)

/-- What a CS# rise makes of the letter in the shifter, after `n` octets were clocked (R200, R201, R530). -/
def State.outRise (s : State) (p : Port) (n : Nat) : State :=
  let x := s.port p
  let done := { x with shifting := none, so := [] }
  match x.shifting with
  | none => s.setPort p done
  | some id =>
    if x.so.length ≤ n then
      { s.setPort p (done.dropSlot id) with desk := s.desk.delivered id false false (some p) }
    else s.setPort p { done with outTears := bump16 x.outTears }

/-- CS_RISE (R183, R190 to R194, R200, R201, R691). `rest`: the octets after those already taken. -/
def execCsRise (p : Port) (rest : List Byte) (tie : Bool) (s : State) : Answer :=
  let x := s.port p
  if x.csLow = false then .next s
  else
    let t := s.setPort p { x with csLow := false, rx := .idle, taken := 0 }
    if x.live = false ∨ x.rx = .idle then .next t
    else
      let t := t.outRise p (x.taken + rest.length)
      s.ends (t.courierRise p x.rx rest tie)

end Sys2Proof.Machine
end

