-- ==== Sys2Proof/Machine/JudgeCmds.lean ====
section
/-! DEFINITION. Judging a letter that holds a docket: the meanings of SEAL_CHECK (R104 to R113, R484) and LETTER_WALK (R86,
R87, R311 to R325, and the effects of the kinds). -/
namespace Sys2Proof.Machine

/-! ## Turns (R255) -/

/-- The next pigeonhole in turn that is ready. -/
def nextTurn (last : Tenant) (ready : Tenant → Bool) : Option Tenant :=
  ((List.range 32).map fun i => tenantOf (last.val + 1 + i)).find? ready

/-- The node judges letters. -/
def State.judges (s : State) : Bool := s.awake && !s.discharging

/-- A letter has its outcome; a strike follows it (R283). -/
def State.failLetter (s : State) (j : Job) (v : Verdict) (strike : Bool) : State :=
  let s := s.conclude j v.status v.detail
  match j.tenant with
  | some t => if strike then s.strike t v.status else s
  | none => s

/-- RIGHTS and the kinds of the postmaster (R86, R87). -/
def State.permitted (s : State) (t : Tenant) (k : Kind) : Bool :=
  (match k.rightsBit with
    | some b => (s.fuses.tenants[t]).rights.getLsbD b
    | none => true) && (!k.postmaster || t = 0)

/-! ## The seal (R104 to R113, R119) -/

/-- NODE of Table 3.13 for an inbound letter. -/
def State.sealNode (s : State) (l : Letter) : Byte :=
  match l.inlet with
  | .courier _ => BitVec.ofNat 8 s.node
  | .channel _ => if idRoute l.ident = 1 then 0xFF else BitVec.ofNat 8 s.node

/-- TENANT of Table 3.13: on a courier port its bound tenant. -/
def State.sealTenant (s : State) (l : Letter) : Tenant := s.owner l

/-- A seal is required (R106, R119). -/
def State.sealNeeded (s : State) (l : Letter) : Bool :=
  if s.fuses.evaluated then decide (l.kind ≠ some .enquiry) else (s.fuses.tenants[l.tenant]).sealReq

/-- The tag matches under the tenant's key (R104, R107). -/
def State.tagMatches (s : State) (l : Letter) : Bool :=
  match s.tenantKey l.tenant with
  | none => false
  | some key =>
    let covered := l.octets.take (headerLen + hBodyLen l.octets)
    sealTag key true (s.sealNode l) (s.sealTenant l).val (idKind l.ident).toNat (idStream l.ident).toNat covered
      (sealCounter l.octets) = sealTagOf l.octets

/-- The words of the counter rings A and B (Table 15.2). -/
def ringOffset (off : Nat) : Bool := ringABase ≤ off && off < ringBBase + 8 * ringSlots

/-- The verdict on a seal: the failing status, with the notice of R111; a passing seal stores its counter (R109). For the
stored counter the rings are read (R112, R614, R621, R622; log 80). -/
def State.judgeSeal (s : State) (l : Letter) : State × Option Byte :=
  let t := l.tenant
  if !l.isSealed then
    (if s.sealNeeded l then (s.notice srcSealMissing t.val, some stSealFailed) else (s, none))
  else if !(s.tagMatches l) then (s.notice srcSealFailed t.val, some stSealFailed)
  else
    let s := s.readWords false [] ringOffset
    match s.store.counter t false with
    | none => ((s.notice srcUncorrectable 5).notice srcStaleFreshness t.val, some stStale)
    | some v =>
      let c := sealCounter l.octets
      if c ≤ v then (s.notice srcStaleFreshness t.val, some stStale)
      else ({ s with store := s.store.setCounter t false c }.noticeIf (c = counterMax) srcCounterEnd t.val, none)

/-! ## READING (R484 to R486, R492, R502, R503) -/

/-- The octets a tenant's latest reading takes in the store. -/
def readingOffset (t : Tenant) : Nat := readingsBase + 128 * t.val

/-- A trend with one more value: its slot's last, lowest and highest (R502). -/
def trendAdd (slot : Nat) (v : Int) : List (Nat × Int × Int × Int) → List (Nat × Int × Int × Int)
  | (n, last, lo, hi) :: r =>
    if n = slot then (slot, v, min lo v, max hi v) :: r
    else (slot, v, v, v) :: ((n, last, lo, hi) :: r).filter fun e => slot < e.1 + 24
  | [] => [(slot, v, v, v)]

/-- INTERVAL differs from the tenant's previous one in this boot (R503). -/
def intervalChanged (old : Option Reading) (b : List Byte) : Bool :=
  match old with
  | some r => r.time.isSome && rdInterval r.body ≠ rdInterval b
  | none => false

/-- The reading as stored. -/
def Reading.accept (old : Option Reading) (b : List Byte) (now : Nat) : Reading :=
  let slot := now / (4000 * rdInterval b)
  let trend := match old with
    | some r => if r.time.isSome && !(intervalChanged old b) then r.trend else []
    | none => []
  { body := b, time := some now, stale := false, trend := trendAdd slot (rdValue b) trend }

/-- The renders of the tiles that a tenant feeds. -/
def State.rendersOf (s : State) (t : Tenant) : State :=
  s.tiles.foldl (fun s x => if x.2.feeds t then s.renderDue (tileRender x.1) else s) s

/-- A READING is accepted (R484). -/
def State.acceptReading (s : State) (t : Tenant) (b : List Byte) : State :=
  let old := s.store.readings[t]
  let was := readingState old
  let store := s.store.put [(readingOffset t, b)]
  let s := { s with store := { store with
    readings := store.readings.set t (some (Reading.accept old b s.clock.uptime)) } }
  let s := s.noticeIf (was = .stale || was = .ageUnknown) srcFresh t.val
  let s := s.noticeIf (intervalChanged old b) srcIntervalChanged (t.val + 65536 * rdInterval b)
  s.rendersOf t

/-! ## SEAL_CHECK -/

/-- The letters of a pigeonhole in one state, in order position. -/
def State.pigeonhole (s : State) (t : Tenant) (st : JobState) : List Job :=
  s.desks.order.filterMap fun i => s.desks.jobs.find? fun j => j.id = i && j.tenant = some t && j.st = st

/-- A sealed letter. -/
def Job.isSealed (j : Job) : Bool := (j.letter.map Letter.isSealed).getD false

/-- The letter has not been walked. -/
def Job.unwalked (j : Job) : Bool := j.st = .sealWait || j.st = .walkWait

/-- A RECALL that is not walked yet, and the tenant it names. -/
def Job.recalls (x : Job) (t : Tenant) : Bool :=
  x.unwalked && x.letterKind = some .recall
    && ((x.letter.map fun l => decide (tenantOf (recallTarget l.body) = t)).getD false)

/-- A letter of a tenant with an earlier RECALL still to take effect waits for it (R292, Table 7.2); a PEEK waits for no
letter of another tenant (R280). -/
def State.recalledFirst (s : State) (j : Job) : Bool :=
  match j.tenant with
  | some t => j.letterKind ≠ some .peek && s.desks.jobs.any fun x => x.recalls t && s.desks.before x.id j.id
  | none => false

/-- An unwalked RECALL lets a READING that has passed its seal check take no effect before it (R292), and a READING of the
tenant that waits so lets none of a later order position go first (R279): the READING waits for its walk (log 70). DESIGN
CHOICE: a READING waits for no STAMP of its tenant, which R279 may be read to ask: R484 stores it at its seal check, and no
effect of the one shows in the other's (log 70). -/
def State.readingWaits (s : State) (j : Job) : Bool :=
  s.recalledFirst j
    || s.desks.jobs.any fun x => x.tenant = j.tenant && x.st = .walkWait && x.letterKind = some .reading
      && s.desks.before x.id j.id

/-- The sealed letter of a pigeonhole that completed first (R110); a READING lets the READINGs of earlier order positions
go first (R279). -/
def State.sealedHead (s : State) (t : Tenant) : Option Job :=
  (s.desks.jobs.find? fun j => j.tenant = some t && j.st = .sealWait && j.isSealed).map fun j =>
    if j.letterKind = some .reading then
      ((s.pigeonhole t .sealWait).find? fun x => x.letterKind = some .reading && s.desks.before x.id j.id).getD j
    else j

/-- The letter of a pigeonhole that the seal check serves: the first in order position (R255); where that one is sealed, the
sealed letter that completed first (R110). The check waits for no other letter, for it has no effect that a RECALL or a
letter of another tenant orders (R280, R292; log 70). -/
def State.sealHead (s : State) (t : Tenant) : Option Job :=
  (s.pigeonhole t .sealWait).head?.bind fun h => if h.isSealed then s.sealedHead t else some h

/-- The letter that the seal check serves next: of the next pigeonhole in turn (R255). -/
def State.sealNext (s : State) : Option Job :=
  (nextTurn s.desks.sealTurn fun t => (s.sealHead t).isSome).bind s.sealHead

/-- SEAL_CHECK (R105 to R113, R284, R484, R621, R622). A READING is accepted here, unless it waits (log 70). -/
def execSealCheck (s : State) : Answer :=
  match (if s.judges then s.sealNext else none) with
  | none => .next s
  | some j =>
    match j.letter with
    | none => .next s
    | some l =>
      let t := l.tenant
      let u := { s with desks := { s.desks with sealTurn := t } }
      match u.judgeSeal l with
      | (u, some status) => s.ends ((u.conclude j status 0).mark t)
      | (u, none) =>
        if l.kind = some .reading && !(u.readingWaits j) then
          if u.permitted t .reading then s.ends ((u.acceptReading t l.body).conclude j stDelivered 0)
          else s.ends (u.failLetter j ⟨stNotPermitted, 0⟩ true)
        else s.ends (u.setJob j.id fun x => { x with st := .walkWait })

/-! ## The walk (Tables 8.3, 8.4) -/

/-- Device boxes (R307). -/
def deviceBox (b : Nat) : Bool := 0xFFF0 ≤ b

/-- A district, when it exists on this node (R312). Under BLANK it is district 0 alone, every tenant's, and it spans the
board of the node, be its tile empty (Table 3.7, R395). -/
def State.district (s : State) (d : Nat) : Option District :=
  if s.fuses.life = .blank then
    (if d = 0 then some ⟨s.tile.getD ⟨0, 0, 0, 0⟩, 0xFFFFFFFF, false⟩ else none)
  else s.fuses.districts.toList.getD d none

def District.ownedBy (d : District) (t : Tenant) : Bool := d.owners.getLsbD t.val

/-- R321. -/
def District.mappableBy (d : District) (t : Tenant) : Bool := d.ownedBy t && (!d.isShared || t = 0)

/-- The system rows on the canvas (R308). -/
def State.systemRows (s : State) : Option Rect :=
  match s.drawsTiles, s.tile with
  | true, some r => some ⟨r.x0, r.y1 - 31, r.x1, r.y1⟩
  | _, _ => none

/-- A canvas rectangle, clipped to the node's tile, lies inside a district; it covers no system row. -/
def State.clippedInside (s : State) (r : Rect) (d : District) : Bool :=
  match s.tile.bind r.clip with
  | some c => c.inside d.rect
  | none => true
def State.clearOfSystem (s : State) (r : Rect) : Bool :=
  match s.tile.bind r.clip, s.systemRows with
  | some c, some y => !(c.meets y)
  | _, _ => true

/-- A letter's rectangle on the canvas, by its box (R316). -/
def boxPlace (b : Rect) (x y w h : Nat) : Rect := ⟨b.x0 + x, b.y0 + y, b.x0 + x + w - 1, b.y0 + y + h - 1⟩

/-- A canvas rectangle on the board, clipped to the node's tile (R310, R316). -/
def State.onBoard (s : State) (r : Rect) : Option Rect :=
  (s.tile.bind r.clip).map fun c => ⟨c.x0 - s.origin.1, c.y0 - s.origin.2, c.x1 - s.origin.1, c.y1 - s.origin.2⟩

/-- Table 8.3; `waive`: R314. -/
def State.walkFault (s : State) (t : Tenant) (box x y w h : Nat) (peek waive : Bool) : Option Verdict :=
  if deviceBox box then some ⟨stProtected, box⟩
  else if 4096 ≤ box || s.store.boxBad box || s.store.boxState box ≠ 1 then some ⟨stUndeliverable, box⟩
  else
    match s.district (s.store.boxDistrict box) with
    | none => some ⟨stOutside, box⟩
    | some d =>
      let b := s.store.boxRect box
      let r := boxPlace b x y w h
      if !(waive || d.ownedBy t) then some ⟨stNotPermitted, 0⟩
      else if !(s.clippedInside b d) then some ⟨stOutside, box⟩
      else if !(s.clearOfSystem b) then some ⟨stProtected, box⟩
      else if !(r.inside b) then some ⟨stOutside, box⟩
      else if peek && !((s.tile.map r.inside).getD false) then some ⟨stOutside, box⟩
      else none

/-- Table 8.4. -/
def State.mapFault (s : State) (t : Tenant) (b : List Byte) : Option Verdict :=
  let box := bBox b
  let entry := if s.store.boxBad box || s.store.boxState box ≠ 1 then none else s.district (s.store.boxDistrict box)
  let step4 := match entry with
    | some e => if e.mappableBy t then none else some (⟨stNotPermitted, 0⟩ : Verdict)
    | none => none
  if deviceBox box then some ⟨stProtected, box⟩
  else if mapOp b ≠ 0 then step4
  else
    match s.district (mapDistrict b) with
    | none => some ⟨stOutside, box⟩
    | some d =>
      if !(d.mappableBy t) then some ⟨stNotPermitted, 0⟩
      else
        match step4 with
        | some v => some v
        | none =>
          if !(s.clippedInside (mapRect b) d) then some ⟨stOutside, box⟩
          else if !(s.clearOfSystem (mapRect b)) then some ⟨stProtected, box⟩
          else none

/-- A walk has failed: the outcome, the notice of R315, and the strike of a PROTECTED_REGION (R283). `found`: this command
has already raised UNCORRECTABLE. -/
def State.walkFails (s : State) (j : Job) (box : Nat) (found : Bool) (v : Verdict) : State :=
  let bad := v.status = stUndeliverable && box < 4096 && s.store.boxBad box
  (s.failLetter j v (v.status = stProtected)).noticeIf (bad && !found) srcUncorrectable 4

/-! ## What the kinds do -/

/-- A POST (R50, R274, R311, R316, R317). -/
def State.walkPost (s : State) (j : Job) (l : Letter) (found : Bool) : State :=
  let b := l.body
  let box := bBox b
  if s.tile = none then s.failLetter j ⟨stOutside, box⟩ false
  else
    match s.walkFault l.tenant box (postX b) (postY b) (postW b) (postH b) false false with
    | some v => s.walkFails j box found v
    | none =>
      let place := boxPlace (s.store.boxRect box) (postX b) (postY b) (postW b) (postH b)
      match s.onBoard place with
      | none => s.conclude j stDelivered 0
      | some r =>
        if (r.minusAll j.spared).isEmpty then s.conclude j stDelivered 0
        else
          (s.setJob j.id fun x => { x with st := .orderWait, rect := some r, mode := postMode b
                                           org := (s.origin.1 + r.x0 - place.x0, s.origin.2 + r.y0 - place.y0)
                                           tag := BitVec.ofNat 16 (postTag b) }).dropBusyBlocks

/-- The pixel rectangle of a POST on the board; before its walk, by its box as it stands. -/
def State.postRect (s : State) (j : Job) : Option Rect :=
  match j.rect, j.letter with
  | some r, _ => some r
  | none, some l =>
    let b := l.body
    if bBox b < 4096 && s.store.boxState (bBox b) = 1 then
      s.onBoard (boxPlace (s.store.boxRect (bBox b)) (postX b) (postY b) (postW b) (postH b))
    else none
  | none, none => none

/-- Octets of a PEEK's data (Table 6.22). -/
def peekLen (b : List Byte) : Nat := if peekPlane b = 2 then peekW b * peekH b else rawLen (peekW b) (peekH b)

/-- A PEEK (R239, R240, R311, R314). -/
def State.walkPeek (s : State) (j : Job) (l : Letter) (found : Bool) : State :=
  let b := l.body
  let box := peekBox b
  let ledger := decide (peekPlane b = 2)
  if ledger && l.tenant ≠ 0 then s.failLetter j ⟨stNotPermitted, 0⟩ true
  else if 262144 < peekLen b then s.failLetter j ⟨stTooLarge, 0⟩ false
  else
    match s.walkFault l.tenant box (peekX b) (peekY b) (peekW b) (peekH b) true ledger with
    | some v => s.walkFails j box found v
    | none =>
      let r := s.onBoard (boxPlace (s.store.boxRect box) (peekX b) (peekY b) (peekW b) (peekH b))
      s.setJob j.id fun x => { x with st := .pendingEffect, rect := r }

/-- What a MAP writes into a box entry: nothing when it unmaps an empty one (R325). -/
def Store.mapWrite (s : Store) (b : List Byte) : Option (List Byte) :=
  if mapOp b ≠ 0 && s.boxState (bBox b) = 0 && !(s.boxBad (bBox b)) then none
  else some (boxEntry (mapRect b) (mapDistrict b) (mapOp b = 0))

/-- A box entry is written through the journal (R306, R325). -/
def Store.writeBox (s : Store) (box : Nat) (o : List Byte) : Store :=
  let s := s.journalTwice 0 .box
  let s := s.put [(boxBase + 16 * box, o)]
  { s with live := s.live.filter (fun e => e.entry ≠ .box) }

/-- A MAP (R322 to R325, Table 15.4). -/
def State.walkMap (s : State) (j : Job) (l : Letter) (found : Bool) : State :=
  let b := l.body
  let box := bBox b
  match s.mapFault l.tenant b with
  | some v => s.walkFails j box found v
  | none =>
    if s.store.isRetired (boxBase + 16 * box) then s.failLetter j ⟨stUndeliverable, box⟩ false
    else
      let store := match s.store.mapWrite b with
        | some o => s.store.writeBox box o
        | none => s.store
      { s with store := store }.conclude j stDelivered 0

/-- A STAMP (R517, R518). -/
def Stamp.write (p : Stamp) (b : List Byte) (now : Nat) : Stamp :=
  let hit := fun (n : Nat) => (stampMask b).testBit n
  { p with
    segs := Vector.ofFn fun n => if hit n.val then ⟨stampPattern b n.val % 4, Nat.mod_lt _ (by decide)⟩ else p.segs[n]
    fallback := Vector.ofFn fun n =>
      if hit n.val then
        (if stampLife b = 0 then none else some (now + ms (stampLife b), (stampFallbackBits b).testBit n.val))
      else p.fallback[n] }

/-- A POST staged with a tag, to which a RELEASE or WEIGH of a tenant applies (R367). -/
def Job.stagedFor (j : Job) (t : Tenant) (tag : Nat) : Bool :=
  j.isPost && j.rect.isSome && j.outcome.isNone && j.tag ≠ 0 && j.tag.toNat = tag && (t = 0 || j.tenant = some t)

/-- The POSTs that a RELEASE applies to: staged for it, earlier in the order, past their walk (R367, R372, R373). -/
def State.releasePosts (s : State) (j : Job) (t : Tenant) (tag : Nat) : List Nat :=
  (s.desks.jobs.filter fun x => x.walked && x.stagedFor t tag && s.desks.before x.id j.id).map (·.id)

/-- The RELEASEs whose instants are to come, in the order of their instants: that of completion, which the jobs keep
(R110, R368). -/
def State.queueRelease (s : State) (r : PendingRelease) : List PendingRelease :=
  let place := fun (x : PendingRelease) => s.desks.jobs.findIdx fun j => j.id = x.job
  insertBy (fun a b => place a < place b) r s.board.releases

/-- The WEIGH letters walked so far that have made an earmark which still stands, or may yet make one (R379). -/
def State.weighsSoFar (s : State) : List Nat :=
  s.energy.weighs ++ s.desks.jobs.filterMap fun j => (j.earmark.bind (·.weigh)).map (·.1)

/-- A RELEASE is judged (R368, R372, R376, R379); what an all-or-none RELEASE meets is seen at its instant. DESIGN CHOICE: the
POSTs that a plain RELEASE reaches are those that have passed their walk when it is judged, not at T_R: R372 names neither
moment (log 79). -/
def State.walkRelease (s : State) (j : Job) (l : Letter) : State :=
  let posts := s.releasePosts j l.tenant (relTag l.body)
  let all := decide (relForm l.body = 1)
  if posts.isEmpty && !all then s.conclude j stDelivered 0
  else
    { s.setJob j.id (fun x => { x with st := .pendingEffect }) with
      board := { s.board with releases := s.queueRelease ⟨j.id, posts, all, s.weighsSoFar⟩ } }

/-- A WEIGH starts a weigh-in whatever the age of the latest result (R436). -/
def State.walkWeigh (s : State) (j : Job) : State :=
  ({ s.setJob j.id (fun x => { x with st := .pendingEffect, asked := some s.energy.nextAsk }) with
     energy := { s.energy with nextAsk := s.energy.nextAsk + 1, weighs := s.energy.weighs ++ [j.id] } }).startWeigh

/-- A SUBSCRIBE (R243, R532, R533). -/
def Subscription.apply (x : Subscription) (b : List Byte) (i : Inlet) : Subscription :=
  let mask : BitVec 64 := BitVec.ofNat 64 (subMask b)
  let set : BitVec 64 := mask &&& BitVec.ofNat 64 (subValue b)
  let fast := (subFlags b).testBit 0
  { x with word := (x.word &&& ~~~ mask) ||| set
           fast := if fast then x.fast ||| set else x.fast &&& ~~~ set
           subs := Vector.ofFn fun n => if set.getLsbD n.val then BitVec.ofNat 3 (subSub b) else x.subs[n]
           inlet := some i }
def State.walkSubscribe (s : State) (j : Job) (l : Letter) : State :=
  let t := l.tenant
  if (subFlags l.body).testBit 0 && !(s.fuses.tenants[t]).fastClass then s.failLetter j ⟨stNotPermitted, 0⟩ true
  else
    { s with desk := { s.desk with subs := s.desk.subs.set t ((s.desk.subs[t]).apply l.body l.inlet) } }.conclude j
      stDelivered 0

/-- A RECALL takes effect (R292 to R299); `finish` completes it when nothing of the target has started. DESIGN
CHOICE: its ACCEPTED is produced before the RECALLED receipts of the target (R297 names no order), and a RECALL that joins
one that runs gets its ACCEPTED at the join (R298 names its final receipt only; log 76). -/
def State.walkRecall (s : State) (j : Job) (l : Letter) : State :=
  let t := tenantOf (recallTarget l.body)
  if !(s.fuses.tenants[t]).enable then s.conclude j stDelivered 0
  else
    let s := (s.setJob j.id fun x => { x with st := .pendingEffect }).progress j stAccepted 0
    if s.desks.recalls.any (·.1 = t) then
      { s with desks := { s.desks with
          recalls := s.desks.recalls.map fun r => if r.1 = t then (r.1, r.2 ++ [j.id]) else r } }
    else
      let x := s.desks.standing[t]
      let s := s.setFault t { x with fault := .recalling, cautionEnd := none, suspensionEnd := none }
      { s.withdraw t stRecalled with desks := { (s.withdraw t stRecalled).desks with
          recalls := (s.withdraw t stRecalled).desks.recalls ++ [(t, [j.id])] } }

/-- A page of the waveform store is retired (Table 15.4). -/
def Store.waveRetired (s : Store) : Bool := (List.range 512).any fun i => s.isRetired (waveBase + 4096 * i)

/-- An ENQUIRY is answered (R120, R245, R251). -/
def State.walkEnquiry (s : State) (j : Job) (l : Letter) : State :=
  let isShort := s.fuses.evaluated && !l.isSealed
  let s := s.noticeIf isShort srcUnsealedEnquiry (inletCode l.inlet)
  s.answer j kStatus (s.statusBody isShort) isShort

/-- An ACKNOWLEDGE (R548 to R550). -/
def Desk.acknowledge (d : Desk) (t : Tenant) (clear : Nat) (race : AckRace) : Desk :=
  { d with opening := race.later
           window := if race.own then max 1 d.window else d.window
           sources := Vector.ofFn fun i =>
             if clear.testBit i.val && (d.subs[t]).word.getLsbD i.val
             then { d.sources[i] with pending := false, inHand := false } else d.sources[i] }

/-- A letter past its seal check is judged at order 14 and acted on. -/
def State.walkLetter (s : State) (j : Job) (l : Letter) (race : AckRace) (found : Bool) : State :=
  match l.kind with
  | none => s
  | some k =>
    if !(s.permitted l.tenant k) then s.failLetter j ⟨stNotPermitted, 0⟩ true
    else
      match k with
      | .post => s.walkPost j l found
      | .peek => s.walkPeek j l found
      | .reading => (s.acceptReading l.tenant l.body).conclude j stDelivered 0
      | .map => s.walkMap j l found
      | .stamp => { s with stamp := s.stamp.write l.body s.clock.uptime }.conclude j stDelivered 0
      | .release => s.walkRelease j l
      | .weigh => s.walkWeigh j
      | .subscribe => s.walkSubscribe j l
      | .recall => s.walkRecall j l
      | .waveset =>
        if s.store.waveRetired then s.failLetter j ⟨stNotPermitted, 0⟩ false
        else s.setJob j.id fun x => { x with st := .pendingEffect }
      | .enquiry => s.walkEnquiry j l
      | .acknowledge =>
        { s with desk := s.desk.acknowledge l.tenant (ackClear l.body) race }.conclude j stDelivered 0

/-! ## LETTER_WALK -/

/-- R278: a MAP and a letter that names its box are walked in their order; a PEEK waits for no other tenant, and holds
none back (R280). -/
def Job.mapOrder (x j : Job) : Bool :=
  x.unwalked && (x.letter.bind Letter.box?).isSome && x.letter.bind Letter.box? = j.letter.bind Letter.box?
    && (x.letterKind = some .map || j.letterKind = some .map)
    && (x.tenant = j.tenant || (x.letterKind ≠ some .peek && j.letterKind ≠ some .peek))

/-- R518: STAMP letters are walked in their order. -/
def Job.stampOrder (x j : Job) : Bool := x.unwalked && x.letterKind = some .stamp && j.letterKind = some .stamp

/-- R292, Table 7.2: a RECALL takes effect behind the earlier letters of its target; a PEEK holds it back no more than any
other letter of another tenant (R280). -/
def Job.recallOrder (x j : Job) : Bool :=
  j.unwalked && x.unwalked && x.letterKind ≠ some .peek && ((x.tenant.map j.recalls).getD false)

/-- A letter with an earlier order position has to be walked first. -/
def State.walkHeld (s : State) (j : Job) : Bool :=
  s.desks.jobs.any fun x => s.desks.before x.id j.id && (x.mapOrder j || x.stampOrder j || x.recallOrder j)
    || s.recalledFirst j

/-- What holds a letter is a letter of its own tenant. -/
def State.walkHeldOwn (s : State) (j : Job) : Bool :=
  s.desks.jobs.any fun x => x.tenant = j.tenant && s.desks.before x.id j.id && (x.mapOrder j || x.stampOrder j)

/-- The letter of a pigeonhole that the walk would serve: its first in order position; where that one waits for letters of
other tenants alone, the first PEEK behind it that may be walked (R280; log 43). -/
def State.walkHead (s : State) (t : Tenant) : Option Job :=
  let q := s.pigeonhole t .walkWait
  q.head?.bind fun h =>
    if !(s.walkHeld h) then some h
    else if s.walkHeldOwn h then none
    else q.find? fun j => j.letterKind = some .peek && !(s.walkHeld j)

/-- The letter that the walk serves next (R255). -/
def State.walkNext (s : State) : Option Job :=
  (nextTurn s.desks.walkTurn fun t => (s.walkHead t).isSome).bind s.walkHead

/-- The walk of a letter reads the two words of its box entry (R305, R315). -/
def Letter.readsWord (l : Letter) (off : Nat) : Bool :=
  match l.box? with
  | some b => b < 4096 && boxBase + 16 * b ≤ off && off < boxBase + 16 * b + 16
  | none => false

/-- LETTER_WALK (R86, R87, R255, R311 to R325, R621, R622). -/
def execLetterWalk (race : AckRace) (found : Findings) (s : State) : Answer :=
  match (if s.judges then s.walkNext else none) with
  | none => .next s
  | some j =>
    match j.letter with
    | none => .next s
    | some l =>
      let u := { s with desks := { s.desks with walkTurn := l.tenant } }.find found
      let noted := u.store.unread.lost.any fun o => l.readsWord (u.store.served o)
      s.ends ((u.readWords false [] l.readsWord).walkLetter j l race noted)

end Sys2Proof.Machine
end

