-- ==== Sys2Proof/Machine/EnergyCmds.lean ====
section
/-! DEFINITION. Weigh-ins and earmarks: the meanings of EARMARK_REQUEST to WEIGH_IN_END, of ENERGY_SHORT_TIMER and
RENDER_WAIT_TIMER, and of the two ends of a staged earmark. -/
namespace Sys2Proof.Machine

/-! ## EARMARK_REQUEST -/

/-- A POST with an earlier order position has not finished its walk (R276). -/
def State.orderHeld (s : State) (j : Nat) : Bool :=
  s.desks.jobs.any fun x => x.isPost && s.desks.before x.id j && (x.st = .sealWait || x.st = .walkWait)

/-- A POST asks: after the Order wait, from Held once the board is no longer disabled (R447), or released and without an
earmark (R372). DESIGN CHOICE: the Order wait ends for the asking once the earlier POSTs are walked (R276); Table 7.1 has it
last until they have dealt with the pixels, and step 7 of the worked example of 07_pigeonholes.md earmarks a POST before that
(R261; log 79). -/
def State.postAsks (s : State) (j : Job) : Bool :=
  j.isPost && j.rect.isSome && j.outcome.isNone && j.earmark.isNone && j.asked.isNone && !(s.orderHeld j.id)
    && (j.st = .orderWait || j.st = .held
        || (j.released && (s.board.lanesOf j.id).any fun l => (s.board.lanes[l]).st = .staged || (s.board.lanes[l]).st = .armed))

/-- The need of a job over its rectangle joins the asking order (R26, R416, R442, R443). -/
def State.askFor (s : State) (j : Job) : State :=
  s.ask j.id ((j.rect.map Rect.area).getD 0) (s.needFrames j.kind j.mode)

/-- What forbids a POST that has not started: no board any more (R50, R394), or, where its mode is checked, no such mode in
the set (R386). -/
def State.postFault (s : State) (j : Job) (checked : Bool) : Option Verdict :=
  if s.boardSize = none then some ⟨stOutside, (j.letter.map fun l => bBox l.body).getD 0⟩
  else if checked && (s.modeLen j.mode).isNone then some (malformed 8)
  else none

/-- A POST asks, or waits in Held while the board is disabled (R436, R446, R447). -/
def State.postEarmark (s : State) (j : Job) : State :=
  if s.boardDisabled then s.holdDisabled j else (s.askFor j).stir.grantOrWeigh

/-- Grants or a weigh-in when something asks. -/
def State.grantOrWeighIf (s : State) (c : Bool) : State := if c then s.grantOrWeigh else s

/-- A POST's request. The mode is checked as the POST leaves the Order wait; one that asks again from Held has had that check,
and the other comes before its first copy (R386). -/
def State.requestPost (s : State) (j : Job) : State :=
  match (if j.started then none else s.postFault j (j.st = .orderWait)) with
  | some v => s.failLetter j v false
  | none => s.postEarmark j

/-- A render between its request and its write-back (R493). -/
def State.renderBusy (s : State) (tile : Fin 33) : Bool := s.desks.jobs.any fun j => j.kind = .render tile

/-- A render's request: shelf granules first (R490), then the earmark (R489, R491). DESIGN CHOICE: the first render of the
system rows uses mode 0 too, though R491 speaks of tiles alone (log 51). -/
def State.requestRender (s : State) (tile : Fin 33) (r : Rect) : State :=
  let x := s.renders[tile]
  let g := renderGranules r
  let since := if x.since.isSome then x.since else some s.clock.uptime
  if shelfGranules < s.allClaims + g then
    { s with renders := s.renders.set tile { x with claiming := true, since := since } }
  else
    let j := { Job.new s.desks.nextJob (.render tile) none .orderWait g with rect := some r
                                                                             mode := if x.drawn then 1 else 0 }
    let s := { s with renders := s.renders.set tile { x with claiming := false, since := since }
                      desks := { s.desks with jobs := s.desks.jobs ++ [j], nextJob := s.desks.nextJob + 1 } }
    (s.askFor j).stir.grantOrWeigh

/-- A settling or cleaning round asks (R419, R474). -/
def State.requestTidy (s : State) (k : JobKind) (r : Rect) : State :=
  let j := { Job.new s.desks.nextJob k none .orderWait 0 with
    rect := some r, mode := match k with | .cleaning _ => 15 | .letter | .render _ | .settling _ _ => 0 }
  let s := { s with desks := { s.desks with jobs := s.desks.jobs ++ [j], nextJob := s.desks.nextJob + 1 } }
  (s.askFor j).stir.grantOrWeigh

/-- The block whose settling round asks next: one at a time, in raster order (R693), inside the set (R410). DESIGN
CHOICE: a block outside the set is passed over, and a later one may ask before it (log 79). -/
def State.nextBlock (s : State) : Option (Nat × Nat) :=
  if s.desks.jobs.any (fun j => j.earmark.isNone && (match j.kind with
      | .settling _ _ => true
      | .letter | .render _ | .cleaning _ => false)) then none
  else s.settling.find? fun b => (s.desks.settlingJob b.1 b.2).isNone && (match s.blockRect b.1 b.2 with
    | some r => (s.outsideSet r).isNone
    | none => false)

/-- A torn rectangle whose cleaning round may ask: none has asked yet, and its pixels lie inside the set (R410, R474). It
asks under a round too, and takes its lane after that round (`State.laneWaiters`). -/
def State.cleanable (s : State) (t : Torn) : Bool :=
  !(s.desks.jobs.any fun j => j.kind = .cleaning t.id) && (s.outsideSet t.rect).isNone && s.boardSize.isSome

/-- Before the first rotation of a boot only renders ask: POSTs stay in the Order wait (R609), and settling and cleaning
rounds are tested against the latest rotation (R410). -/
def askerEarly : Asker → Bool
  | .render _ => true
  | .post _ | .settling _ _ | .cleaning _ => false

/-- EARMARK_REQUEST (R276, R386, R410, R419, R436, R444, R447, R474, R489, R490, R609, R693). -/
def execEarmarkRequest (who : Asker) (s : State) : Answer :=
  if s.mayAsk && (s.start.rotated || askerEarly who) then
    let u := s.dropBusyBlocks
    match who with
    | .post i =>
      match u.job? i with
      | some j => if u.postAsks j then s.ends (u.requestPost j) else .next s
      | none => .next s
    | .render tile =>
      match u.tileRect tile.val with
      | some r => if (u.renders[tile]).pending && !(u.renderBusy tile) then s.ends (u.requestRender tile r) else .next s
      | none => .next s
    | .settling col row =>
      match u.blockRect col row with
      | some r => if u.nextBlock = some (col, row) then s.ends (u.requestTidy (.settling col row) r) else .next s
      | none => .next s
    | .cleaning i =>
      match u.torn.find? (·.id = i) with
      | some t => if u.cleanable t then s.ends (u.requestTidy (.cleaning i) t.rect) else .next s
      | none => .next s
  else .next s

/-! ## When a weigh-in runs (R436, R437) -/

/-- A scheduled weigh-in is due: 30 s after the latest while an earmark is held, 2 s while something waits for one. -/
def State.weighDue (s : State) : Bool :=
  let past := fun (n : Nat) => match s.energy.latest with
    | some w => decide (w.time + n ≤ s.clock.uptime)
    | none => true
  (past 30000 && s.desks.jobs.any (·.earmark.isSome)) || (past 2000 && !s.askers.isEmpty)

/-- WEIGH_IN_TIMER (R436). -/
def execWeighInTimer (s : State) : Answer :=
  if s.mayWeigh = true ∧ s.energy.weighing = false ∧ s.weighDue = true then s.ends s.startWeigh else .next s

/-- VHOLD_BELOW_GUARD (R436, R437); `mv`: VHOLD in mV. -/
def execVholdBelowGuard (mv : Nat) (s : State) : Answer :=
  match s.energy.latest.bind (·.cap) with
  | some c =>
    if s.awake = true ∧ s.guarded = false ∧ belowGuard (10 * mv) s.floor s.held c = true then
      s.ends { s with energy := { s.energy with vhold := 10 * mv } }.startWeigh
    else .next s
  | none => .next s

/-! ## The end of a weigh-in -/

/-- The result of R432 to R435. DESIGN CHOICE: a weigh-in that failed, or that applied no load, leaves no C, so that R437 has no
guard voltage until the next one: no guard stands, and VHOLD_BELOW_GUARD starts no weigh-in (R437; log 49). -/
def weighResult (now v0 dv ihv : Nat) : WeighIn :=
  if v0Low v0 then { time := now, eu := 0, cap := none, failed := false, v0 := v0 }
  else if dvFull < dv then { time := now, eu := 0, cap := none, failed := true, v0 := v0 }
  else { time := now, eu := usable (50000 + ihv) v0 dv, cap := some (50000 + ihv, dv + 2), failed := false, v0 := v0 }

/-- A POST whose rounds are STAGED and nothing else (R449). -/
def State.onlyStaged (s : State) (j : Job) : Bool :=
  j.isPost && !(s.board.lanesOf j.id).isEmpty && !(j.parts.any (·.st = .done))
    && (s.board.lanesOf j.id).all fun l => (s.board.lanes[l]).st = .staged

/-- A POST every part of which holds a STAGED lane (R377). -/
def State.fullyStaged (s : State) (j : Job) : Bool :=
  s.onlyStaged j && j.parts.all fun p => match p.st with
    | .laned _ => true
    | .waiting | .copying | .copied | .done => false

/-- STAGETAG and tenant as DETAIL carries them (Table 13.1). -/
def Job.tagDetail (j : Job) : Nat := j.tag.toNat + 65536 * (j.tenant.map (·.val)).getD 0

/-- R449: earmarks of STAGED rounds are dropped, the latest granted first, until the held total fits. -/
def State.dropEarmarks (s : State) : List Job → State
  | [] => s
  | j :: r =>
    if s.floor + s.held ≤ (s.energy.latest.map (·.eu)).getD 0 then s
    else ((s.setJob j.id fun x => { x with earmark := none }).notice srcEarmarkDropped j.tagDetail).dropEarmarks r

/-- The candidates of R449, the latest granted first. -/
def State.stagedEarmarks (s : State) : List Job :=
  sortBy (fun a b => (b.earmark.map (·.seq)).getD 0 ≤ (a.earmark.map (·.seq)).getD 0)
    (s.desks.jobs.filter fun j => j.earmark.isSome && s.onlyStaged j)

/-- HOLD of a WEIGH earmark in ms (R377). -/
def weighHold : Nat := 10000

/-- What a WEIGH finds. -/
structure Weighed where
  posts : List Job
  /-- usable energy for the rounds weighed, and their needs against VHOLD, against XHOLD, and whole, in fJ -/
  free : Nat
  need : Nat
  xneed : Nat
deriving DecidableEq, Repr

/-- The rounds that a WEIGH applies to, and the energy (R367, R377, R451). -/
def State.weighed (s : State) (t : Tenant) (tag : Nat) : Weighed :=
  let posts := s.desks.jobs.filter fun j => j.stagedFor t tag && s.fullyStaged j
  let own := posts.foldl (fun n j => n + (j.earmark.map (·.held)).getD 0) 0
  let needs := posts.map fun j => s.needOf ((j.rect.map Rect.area).getD 0) (s.needFrames j.kind j.mode)
  { posts := posts, free := (s.energy.latest.map (·.eu)).getD 0 - s.floor - (s.held - own),
    need := needs.foldl (fun n x => n + x.1) 0, xneed := needs.foldl (fun n x => n + x.2) 0 }

/-- RESULT of Table 6.22 (R378, R451, R452); `open'`: no earlier need has failed to fit. -/
def State.weighAnswer (s : State) (w : Weighed) (open' : Bool) : Nat :=
  let xown := w.posts.foldl (fun n j => n + (j.earmark.map (·.xheld)).getD 0) 0
  if w.posts.isEmpty then 2
  else if s.boardDisabled || (s.energy.latest.map (·.failed)).getD true || s.chargerBarred then 3
  else if open' && mJup (w.need + w.xneed) ≤ mJdown w.free && (!s.setup.hvsrc || s.xheld - xown + w.xneed ≤ s.declared)
  then 0
  else 1

/-- The new earmarks of a WEIGH (R377); a POST already released arms its lanes (R372). -/
def State.weighGrant (s : State) (job : Nat) (t : Tenant) (posts : List Job) : State :=
  posts.foldl (fun s j =>
    let n := s.needOf ((j.rect.map Rect.area).getD 0) (s.needFrames j.kind j.mode)
    let e : Earmark := { held := n.1, xheld := n.2, seq := s.energy.nextGrant, weigh := some (job, t),
                         expiry := some (s.clock.uptime + weighHold) }
    let s := s.setJob j.id fun x => { x with earmark := some e, asked := none, heldSince := none, need := n.1, xneed := n.2 }
    let s := { s with energy := { s.energy with nextGrant := s.energy.nextGrant + 1 } }
    if j.released then { s with board := s.board.armJob j.id } else s) s

/-- The WEIGHT body (Table 6.22). -/
def State.weightBody (s : State) (result tag : Nat) (w : Weighed) : List Byte :=
  s.postmark ++ leBytes result 1 ++ leBytes tag 2 ++ leBytes 0 2
    ++ leBytes (min (2 ^ 32 - 1) (mJdown w.free)) 4 ++ leBytes (min (2 ^ 32 - 1) (mJup (w.need + w.xneed))) 4
    ++ leBytes (if result = 0 then weighHold else 0) 2 ++ leBytes 0 2

/-- A WEIGH in its place of the asking order, and whether its need stops the grants behind it (R26, R377, R451). -/
def State.serveWeigh (s : State) (j : Job) (open' : Bool) : State × Bool :=
  match j.letter with
  | none => (s, open')
  | some l =>
    let tag := relTag l.body
    let w := s.weighed l.tenant tag
    let result := s.weighAnswer w open'
    let body := s.weightBody result tag w
    let s := if result = 0 then s.weighGrant j.id l.tenant w.posts else s
    let s := { s with energy := { s.energy with weighs := s.energy.weighs.filter (· ≠ j.id) } }
    (s.answer j kWeight body false, open' && result ≠ 1)

/-- R26: the askers of a weigh-in in asking order, WEIGH letters in their places. -/
def State.grantAll (s : State) (open' : Bool) : List Nat → State
  | [] => s
  | i :: r =>
    match s.job? i with
    | none => s.grantAll open' r
    | some j =>
      if j.earmark.isSome || j.asked.isNone then s.grantAll open' r
      else if j.letterKind = some .weigh then (s.serveWeigh j open').1.grantAll (s.serveWeigh j open').2 r
      else if open' && s.covers? j.need j.xneed then (s.grantOne j).grantAll true r
      else (s.hold j).grantAll false r

/-- What a result brings: drops, then grants. -/
def State.weighEnds (s : State) (w : WeighIn) : State :=
  let s := { s with energy := { s.energy with
    weighing := false, latest := some w, vhold := 44 * w.v0
    charger := if s.energy.charger = Charger.paused then Charger.on else s.energy.charger } }
  let s := s.noticeIf w.failed srcWeighFailed (44 * w.v0 / 100)
  let s := s.dropEarmarks s.stagedEarmarks
  s.grantAll true (s.askers.map Job.id)

/-- WEIGH_IN_END (R26, R431 to R437, R444, R446, R449, R451, R495). -/
def execWeighInEnd (v0 dv ihv : Nat) (s : State) : Answer :=
  if s.energy.weighing = true ∧ s.mayWeigh = true then s.ends (s.weighEnds (weighResult s.clock.uptime v0 dv ihv))
  else .next s

/-! ## Timers -/

/-- ENERGY_SHORT_TIMER (R509, Table 12.4). -/
def execEnergyShortTimer (s : State) : Answer :=
  if s.heldLong = true ∧ s.energy.shortHeld = false then
    s.ends { s with energy := { s.energy with shortHeld := true } }
  else .next s

/-- A render in RENDER_DEFERRED and RENDER_WAITING (Table 13.1). -/
def renderDetail (tile : Fin 33) : Nat := if tile.val = 32 then 32 else tile.val

/-- RENDER_WAIT_TIMER (R490, Table 13.1). -/
def execRenderWaitTimer (tile : Fin 33) (s : State) : Answer :=
  let x := s.renders[tile]
  let due := match x.since with
    | some t => decide (t + 60000 ≤ s.clock.uptime)
    | none => false
  if x.pending = true ∧ x.waitNoted = false ∧ due = true then
    s.ends ({ s with renders := s.renders.set tile { x with waitNoted := true } }.notice srcRenderWaiting
      (renderDetail tile))
  else .next s

/-- An earmark has come to its time. -/
def Earmark.isOver (e : Earmark) (now : Nat) : Bool :=
  match e.expiry with
  | some t => t ≤ now
  | none => false

/-- WEIGH_HOLD_EXPIRY (R377); `weigh`: the number of the WEIGH. -/
def execWeighHoldExpiry (weigh : Nat) (s : State) : Answer :=
  let hit := fun (j : Job) => match j.earmark with
    | some e => (match e.weigh with
        | some (i, _) => i = weigh && e.isOver s.clock.uptime
        | none => false)
    | none => false
  if s.desks.jobs.any hit then
    s.ends { s with desks := { s.desks with
      jobs := s.desks.jobs.map fun j => if hit j then { j with earmark := none } else j } }
  else .next s

/-- STAGED_EARMARK_LAPSE (R448); `job`: the number of the POST. -/
def execStagedEarmarkLapse (job : Nat) (s : State) : Answer :=
  match s.job? job with
  | none => .next s
  | some j =>
    match j.earmark with
    | none => .next s
    | some e =>
      if e.weigh.isNone && e.isOver s.clock.uptime then s.ends (s.setJob job fun x => { x with earmark := none })
      else .next s

end Sys2Proof.Machine
end

