-- ==== Sys2Proof/Machine/CommitCmds.lean ====
section
/-! DEFINITION. Commits and lanes: the meanings of PART_COPY_START, PART_COPY_END and LANE_GRANT (R30, R357, R360 to R364,
R386, R406, R455, R474, R499). -/
namespace Sys2Proof.Machine

/-! ## PART_COPY_START -/

/-- A WAVESET waits or is being written (R391, R392) with an earlier order position. DESIGN CHOICE: it waits under R390 from
its walk on, which is where it passes the last of its checks (log 79). -/
def State.behindWaveset (s : State) (j : Nat) : Bool :=
  s.desks.jobs.any fun x => x.letterKind = some .waveset && (x.st = .pendingEffect || x.st = .writing)
    && s.desks.before x.id j

/-- A torn rectangle can be cleaned, but its cleaning round has not asked for a lane yet (R474): it has still to ask for
its earmark, or to be granted it. -/
def State.cleaningOwed (s : State) : Bool :=
  s.torn.any s.cleanable || s.desks.jobs.any fun j => match j.kind with
    | .cleaning _ => j.earmark.isNone
    | .letter | .render _ | .settling _ _ => false

/-- A job may copy: granted, and not over (R24, R461, R570, R609); a POST starts behind the walks of earlier POSTs
(R276), a waiting WAVESET (R391) and cleaning rounds that have still to ask for a lane (R474). -/
def State.mayCopy (s : State) (j : Job) : Bool :=
  s.mayStart && (j.isPost || j.isRender) && j.earmark.isSome && j.outcome.isNone && j.rect.isSome
    && !(j.parts.any (·.st = .copying)) && !(s.desks.jobs.any (·.st = .writing))
    && (j.started || !j.isPost || (!(s.orderHeld j.id) && !(s.behindWaveset j.id) && !s.cleaningOwed))

/-- What a job has still to copy before a later one may: a POST that has not been walked, by its box as it stands
(R277). -/
def State.claims? (s : State) (x : Job) : List Rect :=
  if x.copies then x.uncopied
  else if x.isPost && x.unwalked then ((s.postRect x).map fun r => r.minusAll x.spared).getD []
  else []

/-- What covers a rectangle for a job: rounds, torn rectangles, and what jobs with an earlier order position have not
copied (R30, R277, R358, R474, R692). -/
def State.covers (s : State) (j : Nat) : List Cover :=
  s.roundCovers ++ s.tornCovers
    ++ (s.desks.jobs.filter fun x => x.id ≠ j && s.desks.before x.id j).flatMap fun x =>
        (s.claims? x).map fun r => ⟨.job x.id, r⟩

/-- A cover is still there over a rectangle. -/
def State.coverLive (s : State) (j : Nat) (r : Rect) (c : CoverId) : Bool :=
  (s.covers j).any fun x => x.id = c && x.rect.overlaps r

/-- The division of a rectangle: its parts, waiting (R274, R360, R361). -/
def State.divide (s : State) (j : Job) (rs : List Rect) : List Part :=
  (rs.flatMap fun r => splitParts r (s.covers j.id)).map fun p => ⟨p.1, .waiting, p.2, 0⟩

/-- The first part of a list that nothing covers takes its round's number and is being copied. -/
def startPart (n : Nat) : List Part → List Part × Bool
  | [] => ([], false)
  | p :: r =>
    if p.st = .waiting ∧ p.waitOn = [] then ({ p with st := .copying, round := n } :: r, true)
    else (p :: (startPart n r).1, (startPart n r).2)

/-- A waiting part whose covering set has cleared (R362). -/
def State.partClear (s : State) (j : Job) (p : Part) : Bool :=
  p.st = .waiting && p.waitOn.all fun c => !(s.coverLive j.id p.rect c)

/-- Every part that has cleared is tested and divided again (R363). -/
def State.retest (s : State) (j : Job) (ps : List Part) : List Part :=
  ps.flatMap fun p => if s.partClear j p then s.divide j [p.rect] else [p]

/-- The parts as they stand before the next copy. -/
def State.nextParts (s : State) (j : Job) : List Part :=
  if j.started then s.retest j j.parts
  else s.divide j (match j.rect with
    | some r => r.minusAll j.spared
    | none => [])

/-- A POST or render is deferred: its earmark is freed; a render loses its snapshot and its order position (R406, R408,
R499). -/
def State.deferJob (s : State) (j : Job) (t : Int) : State :=
  let u := s.setJob j.id fun x => { x with st := .deferred, earmark := none, snap := none }
  match j.kind with
  | .render tile =>
    { u with desks := { u.desks with order := u.desks.order.filter (· ≠ j.id) } }.notice srcRenderDeferred
      (renderDetail tile)
  | .letter | .settling _ _ | .cleaning _ => u.progress j stWeather (wholeDegrees t)

/-- The commit starts: it is journalled, and the POST is ACCEPTED (Table 7.1, R472). DESIGN CHOICE: a render journals none, since
R472 names POSTs alone; pixels that it has copied and whose round never began keep their target value at the recovery, where
the prose before R470 has the planes equal but for torn rectangles (log 26). -/
def State.commitStarts (s : State) (j : Job) : State :=
  match j.letter with
  | none => s
  | some l =>
    let p : JPost := { job := j.id, letter := l, copied := [], ran := false, boot := s.boot }
    { s with store := { s.store.journal (some (j.id, .commit)) with posts := s.store.posts ++ [p] } }.progress j stAccepted 0

/-- A POST starts its commit: the POSTs of its tenant and box that precede it spare its rectangle from now on, and one
that is left with no pixel is delivered at once (R274). -/
def State.spareFor (s : State) (j : Job) : State :=
  match j.letter, j.rect with
  | some m, some r =>
    let hit := fun (x : Job) => !x.started && x.outcome.isNone && (x.letter.map fun l => l.precedesPost m).getD false
    let jobs := s.desks.jobs.map fun x => if hit x then { x with spared := x.spared ++ [r] } else x
    let s := { s with desks := { s.desks with jobs := jobs } }
    (s.desks.jobs.filter fun x => hit x && (x.rect.map fun q => (q.minusAll x.spared).isEmpty).getD false).foldl
      (fun s x => s.conclude x stDelivered 0) s
  | _, _ => s

/-- The copy of a part starts. -/
def State.copyStarts (s : State) (j : Job) (parts : List Part) : State :=
  let s := s.setJob j.id fun x => { x with parts := parts, started := true
                                           st := if x.st = .running then .running else .committing }
  let s := { s with store := { s.store with nextRound := s.store.nextRound + 1 } }
  (if j.started then s else (s.commitStarts j).spareFor j).stir

/-- PART_COPY_START (R30, R277, R361 to R363, R386, R391, R406, R474). DESIGN CHOICE: of the two tests before the first copy,
that of the mode (R386) comes before that of the temperatures (R406; log 79). -/
def execPartCopyStart (job : Nat) (s : State) : Answer :=
  let u := s.dropBusyBlocks
  match u.job? job with
  | none => .next s
  | some j =>
    if u.mayCopy j then
      let (parts, free) := startPart u.store.nextRound (u.nextParts j)
      if j.started then
        (if free then s.ends (u.copyStarts j parts)
         else if parts ≠ j.parts then s.ends (u.setJob job fun x => { x with parts := parts })
         else .next s)
      else if free then
        match (if j.isPost then u.postFault j true else none) with
        | some v => s.ends (u.failLetter j v false)
        | none =>
          match j.rect.bind u.outsideSet with
          | some t => s.ends (u.deferJob j t)
          | none => s.ends (u.copyStarts j parts)
      else .next s
    else .next s

/-! ## PART_COPY_END -/

/-- The pixel that a job writes at a board place. -/
def State.jobPixel (s : State) (j : Job) (x y : Nat) : BitVec 4 :=
  match j.kind, j.letter, j.rect with
  | .letter, some l, some r => postPixel l.body (j.org.1 + x - r.x0) (j.org.2 + y - r.y0)
  | .render tile, _, some r => s.renderPixel (j.snap.getD s.snapshot) tile r x y
  | _, _, _ => 0

/-- The copy of a part is written; with the last one the claim is free (R270, R490), and a staged POST's earmark holds for
60 s (R448). -/
def Job.partCopied (j : Job) (now : Nat) : Job :=
  let parts := j.parts.map fun p => if p.st = .copying then { p with st := .copied } else p
  let j := { j with parts := parts }
  if j.committed then
    { j with claim := 0
             st := if j.tag = 0 ∧ parts.any (fun p => p.st ≠ .copied) then .running else j.st
             earmark := if j.tag ≠ 0 && !j.released then j.earmark.map fun e => { e with expiry := some (now + 60000) }
                        else j.earmark }
  else j

/-- PART_COPY_END (R30, R270, R295, R330, R362, R364, R448, R462, R619). -/
def execPartCopyEnd (job : Nat) (s : State) : Answer :=
  match s.job? job with
  | none => .next s
  | some j =>
    match j.parts.find? (·.st = .copying) with
    | none => .next s
    | some p =>
      if s.awake = true ∧ s.discharging = false then
        let store := s.store.put (s.store.planeWrites targetBase p.rect (s.jobPixel j))
        let store := { store with posts := store.posts.map fun x =>
          if x.job = job then { x with copied := x.copied ++ [p.rect] } else x }
        let u := { s with store := store }.setJob job fun x => x.partCopied s.clock.uptime
        s.ends (match u.job? job with
          | some k => (match k.withdrawn with
              | some status => if k.committed then u.withdrawStaged k status 0 else u
              | none => u)
          | none => u)
      else .next s

/-! ## LANE_GRANT -/

/-- A round that waits for a lane: its job and its part. -/
structure Waiter where
  job : Job
  part : Part
deriving DecidableEq, Repr

/-- The copied parts of a job in raster order (R357). -/
def Job.waiters (j : Job) : List Waiter :=
  (sortBy (fun a b => a.rect.raster b.rect) j.laneParts).map fun p => ⟨j, p⟩

/-- Jobs in order position. -/
def State.inOrder (s : State) : List Job := s.desks.order.filterMap s.job?

/-- A job that is a cleaning round, or a settling round. -/
def Job.isCleaning (j : Job) : Bool := match j.kind with
  | .cleaning _ => true
  | .letter | .render _ | .settling _ _ => false
def Job.isSettling (j : Job) : Bool := match j.kind with
  | .settling _ _ => true
  | .letter | .render _ | .cleaning _ => false

/-- A covered part of a job waits: of its division, or, before its first copy, of what its division would be (R362). -/
def State.coveredWait (s : State) (j : Job) : Bool :=
  j.parts.any (·.st = .waiting)
    || ((j.isPost || j.isRender) && j.earmark.isSome && !j.started && j.outcome.isNone
        && (s.nextParts j).any fun p => !p.waitOn.isEmpty)

/-- A settling round may take a lane (R22, R23, R391, R475, R494): no tenant round waits for one, nor a part behind what
covers it. A staged POST that waits under R356 holds it back no more than any other round (R357). -/
def State.maySettle (s : State) : Bool :=
  s.inOrder.all (fun j => (j.laneParts.isEmpty || s.stagedWait j) && !(s.coveredWait j)) && !(s.renders.toList.any (·.pending))
    && !(s.desks.jobs.any fun j => j.isRender && j.parts.isEmpty)
    && 8 ≤ s.board.freeCount && !s.cleaningOwed
    && !s.wavesetWaiting

/-- A round or a copy of another kind than cleaning, or a lane, lies over a rectangle. -/
def State.roundOver (s : State) (r : Rect) : Bool :=
  (s.board.lanes.toList.any fun l => l.st ≠ .free && l.rect.overlaps r)
    || s.desks.jobs.any fun j => !j.isCleaning && j.parts.any fun p => (p.st = .copying || p.st = .copied) && p.rect.overlaps r

/-- The cleaning rounds that may take a lane (R474): one that other rounds cover waits for them, as a part does (R357,
R358). -/
def State.cleaners (s : State) : List Waiter :=
  ((s.desks.jobs.filter Job.isCleaning).flatMap Job.waiters).filter fun w => !(s.roundOver w.part.rect)

/-- The rounds that may take the next lane, first to last: cleaning rounds (R474), then order positions, past staged POSTs
that wait under R356, then settling rounds. DESIGN CHOICE: a part that waits under R356 is therefore no lane request, and never
the one that tries the rails again (R348; log 41). -/
def State.laneWaiters (s : State) : List Waiter :=
  s.cleaners
    ++ (s.inOrder.filter fun j => !(s.stagedWait j)).flatMap Job.waiters
    ++ (if s.maySettle then (s.desks.jobs.filter Job.isSettling).flatMap Job.waiters else [])

/-- The rails may be enabled for a lane (R71, R345, R348, R455, R456). -/
def State.railsAllow (s : State) : Bool :=
  !s.board.loopOpen && !s.setup.railsBarred && s.board.rails ≠ .disabling
    && (s.board.rails ≠ .off || (match s.board.goodTimeout with
        | some t => decide (t + 10000 ≤ s.clock.uptime)
        | none => true))

/-- The lane of a round: STAGED until a release, ARMED otherwise; a released round without an earmark waits STAGED for one
(R24, R372; log 29). -/
def laneFor (w : Waiter) (modeFrames now : Nat) : Lane :=
  { Lane.empty with
    st := if w.job.stages then .staged else .armed
    job := w.job.id, rect := w.part.rect, got := List.replicate w.part.rect.height 0
    prev := List.replicate w.part.rect.height 0, modeFrames := modeFrames, stagedSince := now, round := w.part.round }

/-- The job with a part that has taken a lane. -/
def Job.partLaned (j : Job) (round : Nat) (l : Fin 64) : Job :=
  let parts := j.parts.map fun p => if p.st = .copied ∧ p.round = round then { p with st := .laned l } else p
  let allLaned := parts.all fun p => p.st ≠ .waiting && p.st ≠ .copying && p.st ≠ .copied
  { j with parts := parts
           st := if j.tag ≠ 0 ∧ j.released = false then (if allLaned then .staged else j.st)
                 else if Job.committed { j with parts := parts } then .running else j.st }

/-- A round takes a lane (R355, R364); a settling block that starts leaves the blocks that are due. -/
def State.grantLane (s : State) (w : Waiter) (l : Fin 64) : State :=
  let frames := if w.job.isSettling then 0 else (s.modeLen w.job.roundMode).getD 0
  { s.setJob w.job.id (fun x => x.partLaned w.part.round l) with
    board := { s.board.setLane l (fun _ => laneFor w frames s.clock.uptime) with freeSince := none }
    settling := match w.job.kind with
      | .settling c r => s.settling.filter (· ≠ (c, r))
      | .letter | .render _ | .cleaning _ => s.settling }

/-- The rails of a lane request while they are off: the loop is measured first (R455). -/
def State.railsTried (s : State) (loop : Nat) : State :=
  if loopReadsOpen loop then (s.loopFails 0).disabledNow else s.railsStart

/-- LANE_GRANT (R22 to R24, R49, R50, R344, R347, R355 to R357, R391, R419, R454, R455, R461, R570, R609, Table 15.4). A
request that finds no lane FREE tries the rails again, 10 s after an HVGOOD timeout (R348; log 41). -/
def execLaneGrant (loop : Nat) (s : State) : Answer :=
  let u := s.dropBusyBlocks
  if u.mayStart && u.boardSize.isSome && u.railsAllow && 2 ≤ u.store.journalPages && !(u.desks.jobs.any (·.st = .writing)) then
    match u.laneWaiters, u.board.freeLane with
    | w :: _, some l => s.ends (if u.board.rails = .off then (u.grantLane w l).railsTried loop else u.grantLane w l).stir
    | _ :: _, none => if u.board.rails = .off then s.ends (u.railsTried loop).stir else .next s
    | [], _ => .next s
  else .next s

end Sys2Proof.Machine
end

