-- ==== Sys2Proof/Machine/Collapse.lean ====
section
/-! DEFINITION. The hold-up collapse (R466 to R468, Table 11.6): what the store writes it cuts leave behind (R618), and the
meanings of HOLD_UP_COLLAPSE and HVGOOD_NEGATED. -/
namespace Sys2Proof.Machine

/-! ## Writes cut short (R618): a word is written whole or not at all -/

/-- The parts in copy, each with its job: commits of several jobs interleave (Table 1.5). -/
def State.inCopy (s : State) : List (Job × Part) :=
  s.desks.jobs.flatMap fun j => (j.parts.filter (·.st = .copying)).map fun p => (j, p)

/-- The copy of a part stops. What a POST copied is set back at the recovery, this part too (R472). -/
def State.cutPart (s : State) (j : Job) (p : Part) : State :=
  let store := s.store.putCut (s.store.planeWrites targetBase p.rect (s.jobPixel j))
  { s with store := { store with posts := store.posts.map fun (x : JPost) =>
      if x.job = j.id then { x with copied := x.copied ++ [p.rect] } else x } }

/-- Every copy in progress stops (R467), each at a point of its own (R618, log 75). -/
def State.cutCopy (s : State) : State := s.inCopy.foldl (fun t x => t.cutPart x.1 x.2) s

/-- A write-back stops within a row. The journal shows the `n` rows before it (R471). The row in progress is the recovery's
to write, which gives each of its words the value of R471 and R412, whichever words the cut had left new: nothing reads
that row before, and the model leaves it as it was (log 75). -/
def State.cutRows (s : State) (i : Fin 64) (n : Nat) : State :=
  let l := s.board.lanes[i]
  let r := s.laneRound l
  let y := l.rect.y0 + min n l.rect.height
  if l.st = .closing then
    let (store, beyond) :=
      if y = l.rect.y0 then (s.store, 0) else s.store.writeBack r { l.rect with y1 := y - 1 } l.frames
    let store := store.journalRows l.round (y - l.rect.y0)
    let store := { store with rounds := store.rounds.map fun (r : JRound) =>
      if r.round = l.round then { r with rowsDone := y - l.rect.y0 } else r }
    { s with store := store }.saturated beyond
  else s

/-- A remap entry stands in copy A alone (R630). -/
def State.cutRemap (s : State) (entryA : Bool) : State :=
  match (if entryA && !s.store.remapStopped then s.store.remapping else []) with
  | [] => s
  | (page, spare) :: _ =>
    let store := (s.store.copyPage page spare).wearTable [remapPageA]
    { s with store := { store with remapA := store.remapA ++ [(page, spare)] } }

/-- A box entry is half written: its octets stand in the journal (R306). -/
def Store.cutBox (s : Store) (box : Nat) (o : List Byte) : Store :=
  { (s.journalTwice 0 .box).putCut [(boxBase + 16 * box, o)] with boxWrite := some (box, o) }

/-- The MAP that the walk serves next, when it passes and writes its entry. -/
def State.nextMap (s : State) : Option (Nat × List Byte) :=
  ((if s.judges then s.walkNext else none).bind (·.letter)).bind fun l =>
    if l.kind = some .map ∧ s.permitted l.tenant .map = true ∧ s.mapFault l.tenant l.body = none
        ∧ s.store.isRetired (boxBase + 16 * bBox l.body) = false then
      (s.store.mapWrite l.body).map fun o => (bBox l.body, o)
    else none

/-- A READING that would be accepted. -/
def State.asReading (s : State) (j : Job) : Option (Tenant × List Byte) :=
  j.letter.bind fun l =>
    if l.kind = some .reading ∧ s.permitted l.tenant .reading = true then some (l.tenant, l.body) else none

/-- The READING that the seal check serves next, its seal judged, when it passes and is accepted there, else the one that
the walk serves next; with the store that its record is written to. -/
def State.nextReading (s : State) : Option (Store × Tenant × List Byte) :=
  let sealed := (if s.judges then s.sealNext else none).bind fun j => j.letter.bind fun l =>
    if (s.judgeSeal l).2 = none ∧ s.readingWaits j = false then (s.asReading j).map fun r => ((s.judgeSeal l).1.store, r)
    else none
  let walked := ((if s.judges then s.walkNext else none).bind s.asReading).map fun r => (s.store, r)
  if sealed.isSome then sealed else walked

/-- A READING's record is half written: each of its words holds its old value or its new one (R618). DESIGN CHOICE: the record
is the body in the first words of the tenant's 128 octets, and the last of the 16 words tells that a reading is stored; the
spec gives no layout (log 75). -/
def Store.cutReading (s : Store) (t : Tenant) (b : List Byte) : Store :=
  let there := (s.readings[t]).isSome || Config.cutWord s.freeIx (readingOffset t / 8 + 15)
  let u := s.putCut [(readingOffset t, b)]
  let r : Reading := { body := u.readList (readingOffset t) b.length, time := none, stale := false, trend := [] }
  { u with readings := u.readings.set t (if there then some r else none) }

/-- What the cut writes leave. How far each had come is a free value (log 75). -/
def State.cutWrites (s : State) : State :=
  let n := s.store.freeIx
  let s := { s with store := { s.store with freeIx := n + 1 } }
  let s := match (if Config.cutReading n then s.nextReading else none) with
    | some (store, t, b) => { s with store := store.cutReading t b }
    | none => s
  let s := match (if Config.cutBox n then s.nextMap else none) with
    | some (box, o) => { s with store := s.store.cutBox box o }
    | none => s
  let s := (List.finRange 64).foldl (fun s i => s.cutRows i (Config.cutRows n i)) s
  let s := (s.cutRemap (Config.cutEntry n)).cutCopy
  { s with store := s.cutParcel }

/-- A lane's round is being written back. -/
def State.writesBack (s : State) : Bool := s.board.lanes.toList.any (·.st = .closing)

/-- A write of several words is under way that a loss of the hold-up can cut. -/
def State.midWrite (s : State) : Bool :=
  s.copying || s.writesBack || !s.store.remapping.isEmpty || s.nextMap.isSome || s.nextReading.isSome
    || s.inWriting.isSome

/-! ## The collapse -/

/-- The collapse record, behind the margin that an earlier collapse has left to add (R628), then the fast discharge: the store
and the pixel pipeline stop, a copy in progress stops, and the rails are crowbarred (R467, Table 11.6). -/
def State.collapse (s : State) : State :=
  { s with discharging := true
           store := { s.store.marginFirst.journal none with collapsed := true }
           energy := { s.energy with charger := .stopped }
           board := { s.board with rails := .crowbar, stood := s.board.rails, framing := false, blank := false }
           desks := { s.desks with jobs := s.desks.jobs.map fun j =>
             { j with parts := j.parts.map fun p => if p.st = .copying then { p with st := .waiting } else p } } }

/-- HOLD_UP_COLLAPSE (R466, R467). DESIGN CHOICE: the rails count as enabled until the sequence that disables them has ended
(log 71). -/
def execHoldUpCollapse (s : State) : Answer :=
  if s.awake = true ∧ s.discharging = false ∧ (s.board.rails ≠ .off ∨ s.copying = true ∨ s.shutting = true) then
    .next (s.cutWrites).collapse
  else .next s

/-- HVGOOD_NEGATED (R349): while HVEN is asserted it runs the fast discharge. -/
def execHvgoodNegated (s : State) : Answer :=
  let s := { s with pins := { s.pins with hvgood := false } }
  if s.setup.hvsrc = true ∧ s.railsEnabled = true ∧ s.discharging = false then
    .next ((s.notice srcHvgoodLost (min 64 (s.store.rounds.filter (!·.lastDone)).length)).cutWrites).collapse
  else .next s

end Sys2Proof.Machine
end

