-- ==== Sys2Proof/Machine/RoundCmds.lean ====
section
/-! DEFINITION. Panel frames and write-backs: the meanings of PANEL_FRAME_START, ROUND_WRITE_BACK_END, REMAP_COPY_END,
RELEASE_INSTANT and STAGE_EXPIRY (R350 to R353, R366, R370 to R381, R405, R409 to R425, R445, R630). -/
namespace Sys2Proof.Machine

/-! ## A round starts -/

/-- The values of the rotation that fix the bands of a lane's round (R405). -/
def State.fixBands (s : State) (i : Fin 64) : State :=
  { s with board := s.board.setLane i fun l => { l with temps := s.latestRotation } }

/-- A settling or cleaning round that does not start: its lane and earmark are freed, and its block or rectangle is
considered again (R410). -/
def State.abortTidy (s : State) (i : Fin 64) (j : Job) : State :=
  let s := { s with board := s.board.freeLanes [i] s.clock.uptime, desks := s.desks.freeJob j.id }
  match j.kind with
  | .settling c r => s.queueBlock (c, r)
  | .letter | .render _ | .cleaning _ => s

/-- The first-frame entry of a round (R422). -/
def State.roundEntry (s : State) (l : Lane) (j : Job) (tail : Bool) : JRound :=
  { round := l.round, job := j.id, rect := l.rect, mode := j.roundMode, settling := j.isSettling,
    cleaning := j.isCleaning, tail := tail, set := s.setTag,
    tgrid := ⟨s.setup.code 8 % 16, Nat.mod_lt _ (by decide)⟩, temps := l.temps, frame := 0, lastDone := false
    rowsDone := 0 }

/-- Tail frames of a round at its first panel frame (R414, R415, R420). -/
def State.tailFor (s : State) (l : Lane) (j : Job) : Nat :=
  if j.isSettling || (s.laneRound l).anyTail s.store l.rect then s.tailLen else 0

/-- The journalled start: what a POST copied under this round is no longer set back (R472). -/
def Store.roundStarts (st : Store) (e : JRound) : Store :=
  { st.journalTwice e.round .first with
    rounds := st.rounds ++ [e]
    posts := st.posts.map fun p =>
      if p.job = e.job then { p with copied := p.copied.filter (· ≠ e.rect), ran := true } else p }

/-- An ARMED round starts with its first panel frame (R354, R405, R409, R410, R415, R420, R422), with the length that its
mode has in the set in force (R414, R425). -/
def State.startLane (s0 : State) (i : Fin 64) : State :=
  let s := s0.fixBands i
  let l := s.board.lanes[i]
  match s.job? l.job with
  | none => s0
  | some j =>
    if j.isTidy && (s.outsideSet l.rect).isSome then s.abortTidy i j
    else
      let l := { l with modeFrames := if j.isSettling then 0 else (s.modeLen j.roundMode).getD l.modeFrames }
      let tail := s.tailFor l j
      let clamp := if j.isTidy then none else s.outsideSet l.rect
      let s := { s with
        board := s.board.setLane i fun x => { x with
          st := if j.isSettling then .tail else .running, modeFrames := l.modeFrames, tailFrames := tail }
        store := s.store.roundStarts (s.roundEntry l j (decide (tail ≠ 0))) }
      let s := s.setJob j.id fun x => { x with st := .running, earmark := x.earmark.map fun e => { e with expiry := none } }
      let s := match clamp with
        | some t => s.notice srcBandClamped (wholeDegrees t)
        | none => s
      match j.kind with
      | .settling c r => s.notice srcSettling (c + 256 * r)
      | .letter | .render _ | .cleaning _ => s

/-! ## A frame of a round -/

/-- The number of the frame that begins (R423). DESIGN CHOICE: where a RELEASE that cut a scan has left the rows one frame apart
(R352, R374), it is that of the most advanced row, capped at the last frame (log 79). -/
def Lane.nextFrame (l : Lane) : Nat := min l.lastFrame (l.most + 1)

/-- A running round takes part in panel frames. -/
def LaneState.framed : LaneState → Bool
  | .running | .tail => true
  | .free | .staged | .armed | .paused | .closing => false

/-- State of a started lane by its frame counts (R352, R354, R415). -/
def Lane.settle (l : Lane) : Lane :=
  { l with st := if l.lastFrame ≤ l.least then .closing
                 else if l.modeFrames ≤ l.least then .tail else .running }

/-- Every row with a frame still to receive is driven once more (R350, R352). -/
def Lane.drive (l : Lane) : Lane :=
  Lane.settle { l with prev := l.got, got := l.got.map fun g => if g < l.lastFrame then g + 1 else g }

/-- The frame's number is journalled, and the last-frame entry when it is the last (R423, R469). -/
def Store.frameBegins (st : Store) (round k : Nat) (last : Bool) : Store :=
  let st := st.journal (some (round, .frame k))
  let st := if last then st.journal (some (round, .last)) else st
  { st with rounds := st.rounds.map fun r => if r.round = round then { r with frame := k, lastDone := last } else r }

/-- One frame of one lane; one that only awaits its write-back has none, and no cut takes back what it had (R374). -/
def State.driveLane (s : State) (i : Fin 64) : State :=
  let l := s.board.lanes[i]
  if l.st.framed then
    { s with board := s.board.setLane i Lane.drive
             store := s.store.frameBegins l.round l.nextFrame (decide (l.drive.st = .closing)) }
  else if l.st = .closing then { s with board := s.board.setLane i fun l => { l with prev := l.got } }
  else s

/-- A row is driven in this frame (R350). -/
def Board.rowDriven (b : Board) (y : Nat) : Bool :=
  b.lanes.toList.any fun l => l.st.framed && l.rect.y0 ≤ y && y ≤ l.rect.y1 && l.got.getD (y - l.rect.y0) 0 < l.lastFrame

/-! ## Held earmarks decline (R445) -/

/-- k of R445: the frame of a job's least advanced part, once every part has begun. -/
def State.leastPart (s : State) (j : Job) : Option Nat :=
  let lanes := (s.board.lanesOf j.id).map fun l => s.board.lanes[l]
  if lanes.isEmpty || !(lanes.all (·.st.started)) || (j.parts.any fun p => p.st = .waiting || p.st = .copying || p.st = .copied)
  then none
  else some (lanes.foldl (fun n l => min n l.most) (lanes.headD Lane.empty).most)

/-- What a job's earmark still holds. -/
def State.decline (s : State) (j : Job) : Job :=
  match j.earmark, s.leastPart j with
  | some e, some k =>
    let n := s.needOf ((j.rect.map Rect.area).getD 0) (s.needFrames j.kind j.mode + 1 - k)
    { j with earmark := some { e with held := min e.held n.1, xheld := min e.xheld n.2 } }
  | _, _ => j

/-! ## The panel frame -/

/-- Lanes in a state. -/
def Board.lanesIn (b : Board) (p : LaneState → Bool) : List (Fin 64) := (List.finRange 64).filter fun i => p (b.lanes[i]).st

/-- The lanes whose rounds start with the next panel frame (R354, R461), each under an earmark (R24), while there is a board
(R49, R394). DESIGN CHOICE: they start also after the board loop has opened, while the rails are on: R456 lets running rounds
finish and stops further grants, and names no lane that is ARMED (log 41). -/
def State.starting (s : State) : List (Fin 64) :=
  if s.shutting || s.boardSize.isNone then []
  else (s.board.lanesIn (· = .armed)).filter fun i =>
    ((s.job? (s.board.lanes[i]).job).map fun j => j.earmark.isSome).getD false

/-- RELEASE letters whose instant has passed and whose rounds have begun are DELIVERED (R376). -/
def State.releasesBegun (s : State) : State :=
  (s.desks.jobs.filter fun j => j.letterKind = some .release && j.released && j.outcome.isNone).foldl
    (fun s j => s.conclude j stDelivered 0) s

/-- A word that a panel frame reads: of the planes and the ledger under a round that takes part in it, and of the waveform
store. -/
def State.frameReads (s : State) (also : List (Fin 64)) (off : Nat) : Bool :=
  inRegions [9] off || (wordRect off).any fun w => (List.finRange 64).any fun i =>
    ((s.board.lanes[i]).st.framed || also.contains i) && (s.board.lanes[i]).rect.meets w

/-- A panel frame: what its reads meet first (R621, R622), then the rounds that start, then one frame of every running
round. -/
def State.panelFrame (s : State) : State :=
  let also := s.starting
  let s := s.readWords true also (s.frameReads also)
  let s := also.foldl (fun s i => s.startLane i) s
  let rows := ((List.range s.boardWH.2).filter s.board.rowDriven).length
  let s := (List.finRange 64).foldl (fun s i => s.driveLane i) s
  let s := { s with desks := { s.desks with jobs := s.desks.jobs.map s.decline } }
  { s with board := { s.board with
      blank := false
      framing := !(s.board.lanesIn LaneState.started).isEmpty, frames := s.board.frames + 1, driven := rows
      skipped := s.boardWH.2 - rows } }.releasesBegun

/-- A panel frame may start (R346, R351, R570). -/
def State.mayFrame (s : State) : Bool :=
  s.awake && !s.discharging && !s.limp && s.clock.src = .pll && s.board.rails = .on
    && (!s.starting.isEmpty || !(s.board.lanesIn LaneState.framed).isEmpty)

/-- PANEL_FRAME_START (R346, R350 to R352, R405, R409 to R411, R414, R415, R420 to R423, R445, R621, R622). -/
def execPanelFrameStart (found : Findings) (s : State) : Answer :=
  if s.mayFrame then s.ends (s.find found).panelFrame else .next s

/-! ## CORE_SWITCH_TO_PLL -/

/-- After a REFCLK loss everything returns in the same core cycle: channels, PAUSED lanes, a panel frame, the weigh-ins of
waiting WEIGH letters (R572, R574), and what still asks for an earmark (R436, R570; log 51). -/
def State.recoverClock (s : State) : State :=
  let t := s.onPll.channelsBack
  let t := { t with board := { t.board with lanes := t.board.lanes.map Lane.resume } }.notice srcLimpClock 0
  let t := if t.mayFrame then t.panelFrame else t
  if !t.energy.weighs.isEmpty then t.startWeigh
  else if t.askers.isEmpty || !t.mayAsk then t
  else t.grantOrWeigh

/-- CORE_SWITCH_TO_PLL: the first switch of a boot, of a wake, or after a REFCLK loss (R565, R574, R576, Table 14.5). -/
def execCoreSwitchToPll (s : State) : Answer :=
  if s.clocked = false then .next s
  else
    match s.clock.src with
    | .pll => .next s
    | .start =>
      if s.clock.waking then s.ends s.onPll.channelsBack.portsBack
      else if s.clock.running = false then s.ends s.onPll.startUptime
      else .next s
    | .limp => s.ends s.recoverClock

/-! ## ROUND_WRITE_BACK_END -/

/-- The part of a lane is done; `px`: the pixels its round drove. -/
def Job.partDone (j : Job) (lane : Fin 64) (px : Nat) : Job :=
  { j with parts := j.parts.map fun p => if p.st = .laned lane then { p with st := .done } else p, px := j.px + px }

/-- The last round of a job has ended (R297, R445, Table 13.1): a POST is DELIVERED with the pixels it drove; other rounds
leave no receipt (R22, R488). DESIGN CHOICE: with its last write-back the POST leaves the journal, before its docket is freed, so
that a loss of power between the two leaves it untorn, as the worked example of 11_energy.md has it (R472, R473; log 26). -/
def State.roundsEnd (s : State) (j : Job) : State :=
  match j.kind with
  | .letter =>
    { s with store := { s.store with posts := s.store.posts.filter (·.job ≠ j.id) } }.conclude j stDelivered j.px
  | .render _ | .settling _ _ => { s with desks := s.desks.freeJob j.id }
  | .cleaning i =>
    let u := { s with desks := s.desks.freeJob j.id }
    match u.torn.find? (·.id = i) with
    | some t => u.cleaned t
    | none => u

/-- The shown plane and ledger are written, and the lane is free (R412, R413). -/
def State.writeBackLane (s : State) (i : Fin 64) : State :=
  let l := s.board.lanes[i]
  let (store, beyond) := s.store.writeBack (s.laneRound l) l.rect l.frames
  let store := store.journalRows l.round l.rect.height
  let store := { store.journalDrop l.round with rounds := store.rounds.filter (·.round ≠ l.round) }
  let px := l.drivenPixels s.store
  let s := { s with store := store }.setJob l.job fun x => x.partDone i px
  let board := s.board.freeLanes [i] s.clock.uptime
  { s with board := { board with framing := board.framing && !(board.lanesIn LaneState.started).isEmpty } }.saturated beyond

/-- A word that a round's write-back reads: of the planes and the ledger under the round, and of the ledger in the blocks
that are examined after it (R412, R417, R425). -/
def State.writeBackReads (s : State) (r : Rect) (off : Nat) : Bool :=
  (wordRect off).any fun w => r.meets w
    || (inRegions [3] off && r.blocks.any fun b => ((s.blockRect b.1 b.2).map w.meets).getD false)

/-- ROUND_WRITE_BACK_END (R297, R412, R413, R417 to R419, R424, R425, R445, R456, R463, R621, R622, Table 15.3). -/
def execRoundWriteBackEnd (lane : Fin 64) (s : State) : Answer :=
  let l := s.board.lanes[lane]
  if l.st = .closing ∧ s.awake = true ∧ s.discharging = false then
    let u := (s.readWords false [] (s.writeBackReads l.rect)).writeBackLane lane
    let u := match u.job? l.job with
      | some j => if j.parts.all (fun p => p.st = PartState.done) then u.roundsEnd j else u
      | none => u
    s.ends (u.examine l.rect.blocks).dropSpoilt
  else .next s

/-- REMAP_COPY_END (R621, R622, R630, R632): every word of the page has been read. Once no further remap is made, the page
is retired instead (Table 15.4). -/
def execRemapCopyEnd (s : State) : Answer :=
  match s.store.remapping with
  | [] => .next s
  | (page, spare) :: _ =>
    if s.awake = true ∧ s.discharging = false then
      let u := s.readWords false [] fun off => pageOf (s.store.phys off) = page
      s.ends ({ u with store := u.store.remapEnd page spare }.noticeIf (!u.store.remapStopped) srcPageRemapped (page % 8192))
    else .next s

/-! ## RELEASE_INSTANT -/

/-- A lane that loses the frame of its rows from row `n` on, which the cut scan has not reached (R374); the codes that these
rows would have had in it were never driven (Table 15.3). -/
def Lane.cut (l : Lane) (n : Nat) : Lane :=
  let below := fun (k : Nat) => n ≤ l.rect.y0 + k && l.prev.getD k 0 < l.got.getD k 0
  match l.st with
  | .running | .tail | .closing =>
    Lane.settle { l with
      got := (List.range l.got.length).map fun k => if below k then l.prev.getD k 0 else l.got.getD k 0
      dropped := l.dropped.map fun d =>
        let k := d.1.y0 - l.rect.y0
        if below k then (d.1, min d.2 (l.prev.getD k 0)) else d
      spoilt := l.spoilt.map fun e => (e.1, e.2.1, (List.range e.2.2.length).map fun k =>
        if below k && e.2.2.getD k 0 = l.prev.getD k 0 then l.lastFrame else e.2.2.getD k 0) }
  | .free | .staged | .armed | .paused => l

/-- A scan in progress is cut; a round that its last frame has not reached everywhere has no last-frame entry (R374). -/
def State.cutScan (s : State) (cut : Option Nat) : State :=
  match (if s.board.framing then cut else none) with
  | none => s
  | some n =>
    let open' := (s.board.lanesIn (· = .closing)).filter fun i => ((s.board.lanes[i]).cut n).st ≠ .closing
    let rounds := open'.map fun i => (s.board.lanes[i]).round
    { s with
      board := { s.board with lanes := s.board.lanes.map fun l => l.cut n }
      store := { s.store with
        rounds := s.store.rounds.map fun r => if rounds.contains r.round then { r with lastDone := false } else r
        live := s.store.live.filter fun e => !(rounds.contains e.round && e.entry = .last) } }

/-- A POST with a STAGED lane. -/
def State.holdsStaged (s : State) (j : Job) : Bool := (s.board.lanesOf j.id).any fun l => (s.board.lanes[l]).st = .staged

/-- An earmark that holds at this moment. -/
def Job.earmarked (j : Job) (now : Nat) : Bool := (j.earmark.map fun e => !(e.isOver now)).getD false

/-- A plain RELEASE reaches one POST (R372); the second case's notice comes for each of its STAGED rounds (Table 13.1). -/
def State.releasePost (s : State) (j : Job) : State :=
  let s := s.setJob j.id fun x => { x with
    released := true
    earmark := if j.earmarked s.clock.uptime then x.earmark.map fun e => { e with expiry := none } else none }
  if !(s.holdsStaged j) then s
  else if j.earmarked s.clock.uptime then { s with board := s.board.armJob j.id }
  else
    let rounds := ((s.board.lanesOf j.id).filter fun l => (s.board.lanes[l]).st = .staged).map fun _ => j.tagDetail
    (if s.boardDisabled || j.asked.isSome then s else s.askFor j).notices srcReleaseUnearmarked rounds

/-- The POSTs that an all-or-none RELEASE meets with STAGED rounds (R367, R379, R380). DESIGN CHOICE: of any order position,
since R379 and R380 name none (log 79). -/
def State.allOrNonePosts (s : State) (t : Tenant) (tag : Nat) : List Job :=
  s.desks.jobs.filter fun x => x.walked && x.stagedFor t tag && s.holdsStaged x

/-- A WEIGH of the same tenant, one of `weighs`, made the earmark, and it holds (R379). -/
def Job.weighedBy (j : Job) (weighs : List Nat) (t : Tenant) (now : Nat) : Bool :=
  match j.earmark with
  | some e => !(e.isOver now) && (match e.weigh with
      | some (n, u) => decide (u = t) && weighs.contains n
      | none => false)
  | none => false

/-- The instant of a RELEASE: the new panel frame begins when a round starts (R370, R374, R375), and the RELEASE is
DELIVERED once its rounds have begun (R376). -/
def State.releaseStarts (s : State) (j : Job) (cut : Option Nat) (before : List (Fin 64)) : State :=
  let s := s.setJob j.id fun x => { x with released := true }
  if (s.board.lanesIn (· = .armed)).all before.contains then s.conclude j stDelivered 0
  else
    let u := s.cutScan cut
    if u.mayFrame then u.panelFrame else s

/-- RELEASE_INSTANT (R370 to R381); `cut`: how many rows a scan in progress has reached, that of the line in progress
included; none in its fill line (R347A). -/
def execReleaseInstant (cut : Option Nat) (s : State) : Answer :=
  match (if s.awake && !s.shutting then s.board.releases else []) with
  | [] => .next s
  | rel :: rest =>
    let before := s.board.lanesIn (· = .armed)
    let u := { s with board := { s.board with releases := rest } }
    match u.job? rel.job with
    | none => .next u
    | some j =>
      match j.letter with
      | none => .next u
      | some l =>
        let tag := relTag l.body
        if rel.allOrNone then
          let posts := u.allOrNonePosts l.tenant tag
          if posts.any (fun x => !(x.weighedBy rel.weighs l.tenant s.clock.uptime)) then
            s.ends ((u.conclude j stNotPermitted 0).notice srcAllOrNoneRefused (tag + 65536 * l.tenant.val))
          else
            let u := posts.foldl (fun s x => { s.setJob x.id (fun y => { y with
              released := true, earmark := y.earmark.map fun e => { e with expiry := none } }) with
              board := s.board.armJob x.id }) u
            s.ends (u.releaseStarts j cut before)
        else
          let posts := (rel.posts.filterMap u.job?).filter Job.walked
          let u := posts.foldl (fun s x => s.releasePost x) u
          s.ends ((u.releaseStarts j cut before).grantOrWeighIf (!u.askers.isEmpty))

/-- STAGE_EXPIRY (R366). -/
def execStageExpiry (lane : Fin 64) (s : State) : Answer :=
  let l := s.board.lanes[lane]
  match s.job? l.job with
  | none => .next s
  | some j =>
    if l.st = .staged ∧ l.stagedSince + 300000 ≤ s.clock.uptime ∧ s.awake = true ∧ s.shutting = false
        ∧ s.unstartedStage j = true then
      s.ends ((s.withdrawStaged j stDelivered 0).notice srcStageExpired j.tagDetail)
    else .next s

end Sys2Proof.Machine
end

