-- ==== Sys2Proof/Machine/SenseCmds.lean ====
section
/-! DEFINITION. Temperatures, readback and waveform sets: the meanings of ROTATION_END (R396 to R399, R407, R492, R522,
R609), PEEK_SNAPSHOT (R329 to R339), WAVESET_INSTALL_START and WAVESET_READBACK_END (R390 to R395). -/
namespace Sys2Proof.Machine

/-! ## ROTATION_END -/

/-- TGRID, with no grid while it is not known. -/
def State.tgrid (s : State) : Nat := if s.setup.known 8 then s.setup.code 8 else 0

/-- Temperatures of the inputs in use, in the order of the grid points (R397, R398, R401). -/
def State.inputTemps (s : State) (counts : Vector (BitVec 12) 16) : List (Option Int) :=
  (List.range (gridCols s.tgrid * gridRows s.tgrid)).map fun k =>
    ntcTemp (gridB s.tgrid) (counts.toList.getD k 0).toNat

/-- The failed inputs as a word. -/
def failedWord (raw : List (Option Int)) : BitVec 16 :=
  BitVec.ofNat 16 ((List.range raw.length).foldl (fun n k => n + bitOf k (raw.getD k none).isNone) 0)

/-- The values of a rotation come into use (R396, R398 to R400, R522). -/
def State.useRotation (s : State) (counts : Vector (BitVec 12) 16) (die : Int) : State :=
  let raw := s.inputTemps counts
  let failed := failedWord raw
  let changed := (List.range 16).filter fun k => failed.getLsbD k ≠ s.thFailed.getLsbD k
  let grid := gridOf (gridCols s.tgrid) (gridRows s.tgrid) raw die
  let s := { s with rotation := some ⟨gridCols s.tgrid, gridRows s.tgrid, grid, die⟩, thFailed := failed, dieTemp := die }
  let s := { s with stamp := { s.stamp with vlcd := s.vlcdAt die } }
  s.notices srcThermistor (changed.map fun k => k + 256 * bitOf 0 (failed.getLsbD k))

/-- The first rotation of a boot opens the gate for commits and rounds and makes every tile's render pending (R492,
R609). -/
def State.firstRotation (s : State) : State :=
  if s.start.rotated then s
  else s.tiles.foldl (fun s x => s.renderDue (tileRender x.1)) { s with start := { s.start with rotated := true } }

/-- A render that asks again after a deferral is pending until its grant, and waits from now on (R499, Table 13.1 source
53). -/
def State.waitsAgain (s : State) (j : Job) : State :=
  match j.kind with
  | .render tile =>
    { s with renders := s.renders.set tile { s.renders[tile] with
        pending := true, claiming := false, since := some s.clock.uptime, waitNoted := false } }
  | .letter | .settling _ _ | .cleaning _ => s

/-- A Deferred POST or render whose pixels all lie inside the set asks again (R407, R499); a POST whose board is gone is
answered (R50, R394). -/
def State.retryDeferred (s : State) (j : Job) : State :=
  match j.rect with
  | none => s
  | some r =>
    if j.isPost && s.boardSize = none then s.failLetter j ⟨stOutside, (j.letter.map fun l => bBox l.body).getD 0⟩ false
    else if (s.outsideSet r).isSome then s
    else if j.isPost && s.boardDisabled then s.holdDisabled j
    else ((s.setJob j.id fun x => { x with st := .orderWait }).askFor j).waitsAgain j

/-- Every Deferred job in turn, then the grants, for which those that ask on the limp clock wait (R570; log 51). DESIGN CHOICE:
those that one rotation brings inside the set ask in the order in which the node took them on (R407, R26; log 79). -/
def State.retryAll (s : State) : State :=
  let js := s.desks.jobs.filter fun j => j.st = .deferred && j.asked.isNone
  if s.mayTest && !js.isEmpty then
    let s := js.foldl (fun s j => s.retryDeferred j) s
    if s.askers.isEmpty then s else if s.limp then s.stir else s.stir.grantOrWeigh
  else s

/-- ROTATION_END (R396 to R399, R407, R410, R492, R522, R584, R609). `counts`: the thermistor inputs; `die`: the on-die
sensor in 1/16 °C. -/
def execRotationEnd (counts : Vector (BitVec 12) 16) (die : Int) (s : State) : Answer :=
  if (s.awake = true ∨ s.mode = .watch) ∧ s.clock.running = true ∧ s.rotationAt + 1000 ≤ s.clock.uptime then
    s.ends ({ s with rotationAt := s.rotationAt + 1000 }.useRotation counts die).firstRotation.retryAll
  else .next s

/-! ## PEEK_SNAPSHOT -/

/-- An earlier POST of the same tenant still has to copy pixels that the PEEK reads (R331 to R333). -/
def State.peekWaits (s : State) (j : Job) (r : Rect) : Bool :=
  s.desks.jobs.any fun x => x.isPost && x.tenant = j.tenant && s.desks.before x.id j.id && x.outcome.isNone
    && !x.committed && ((s.postRect x).map r.meets).getD false

/-- One row of a plane as raw pixel data (R236). -/
def Store.rawRow (s : Store) (base y x0 w : Nat) : List Byte :=
  (List.range ((w + 1) / 2)).map fun i =>
    (if 2 * i + 1 < w then s.pixel base (x0 + 2 * i + 1) y else 0) ++ s.pixel base (x0 + 2 * i) y

/-- DATA of an ANSWER (R335 to R337, Table 6.22). -/
def Store.peekData (s : Store) (plane : Nat) (r : Rect) : List Byte :=
  r.rows.flatMap fun y =>
    if plane = 2 then (List.range r.width).map fun i => BitVec.ofInt 8 (s.ledger (r.x0 + i) y)
    else s.rawRow (if plane = 0 then targetBase else shownBase) y r.x0 r.width

/-- The ANSWER body (R329, R338, R339, Table 6.22); `b`: the PEEK's body. -/
def State.answerBody (s : State) (b : List Byte) (r : Rect) : List Byte :=
  let motion := (r.pixels.filter fun p => s.inMotion p.1 p.2).length
  s.postmark ++ leBytes (peekPlane b) 1 ++ leBytes (bitOf 0 (motion ≠ 0)) 1 ++ leBytes 0 3 ++ leBytes motion 4
    ++ (b.drop 4).take 8 ++ s.store.peekData (peekPlane b) r

/-- A word that a PEEK reads: of its plane, under its rectangle (R329, Table 6.22). -/
def peekReads (plane : Nat) (r : Rect) (off : Nat) : Bool :=
  inRegions [if plane = 2 then 3 else if plane = 0 then 2 else 1] off && (wordRect off).any r.meets

/-- PEEK_SNAPSHOT (R329 to R339, R621, R622). -/
def execPeekSnapshot (job : Nat) (found : Findings) (s : State) : Answer :=
  match s.job? job with
  | none => .next s
  | some j =>
    match j.letter, j.rect with
    | some l, some r =>
      if s.judges = true ∧ l.kind = some .peek ∧ j.st = .pendingEffect ∧ s.peekWaits j r = false then
        let u := s.takeFindings false [] (peekReads (peekPlane l.body) r) found
        s.ends (u.answer j kAnswer (u.answerBody l.body r) false)
      else .next s
    | _, _ => .next s

/-! ## Installing a waveform set -/

/-- A WAVESET in a state. -/
def State.waveset (s : State) (st : JobState) : Option Job :=
  s.inOrder.find? fun j => j.letterKind = some .waveset && j.st = st

/-- A POST with an earlier order position has not ended (R390). -/
def State.postsBefore (s : State) (j : Nat) : Bool :=
  s.desks.jobs.any fun x => x.isPost && x.outcome.isNone && s.desks.before x.id j

/-- The store holds no valid set while a parcel is written, and the set in force is what R385 then gives (R392; log 31). -/
def State.spoilSet (s : State) : State :=
  let s := { s with waves := { s.waves with before := s.waves.inForce, valid := false } }
  { s with waves := { s.waves with inForce := s.setChoice } }

/-- WAVESET_INSTALL_START (R385, R390, R392): what the store held is valid no more (log 31), so that the ROM set of the class
is in force while the parcel is written, and none under PCLASS 14. With a page of the waveform store
retired since its walk, the WAVESET is answered NOT_PERMITTED and the set in force stays (R635, Table 15.4). -/
def execWavesetInstallStart (s : State) : Answer :=
  match s.waveset .pendingEffect with
  | none => .next s
  | some j =>
    if s.awake = true ∧ s.shutting = false ∧ s.board.allFree = true
        ∧ s.postsBefore j.id = false ∧ s.waveset .writing = none then
      s.ends (if s.store.waveRetired then s.failLetter j ⟨stNotPermitted, 0⟩ false
              else (s.spoilSet.setJob j.id fun x => { x with st := .writing }).progress j stAccepted 0)
    else .next s

/-- R394: the new set waits for the next cold start. It is held against the set that was in force when its writing began,
whose octets still stand in the store where it was the store's (log 31). -/
def State.setDefers (s : State) (p : List Byte) : Bool :=
  let w := s.waves.before
  let q := s.store.parcel
  w ≠ .none && (setSdck .store p ≠ setSdck w q || setFrame .store p ≠ setFrame w q
    || (s.pclass = 14 && (wsWidth q ≠ wsWidth p || wsHeight q ≠ wsHeight p)))

/-- R395: a board that had no set comes up. -/
def State.boardComesUp (s : State) : State :=
  let renders := s.renders.map fun r => { r with drawn := false }
  { s with renders := renders }.examineAll

/-- The set is in the store and reads back (R385, R392, R394, R395). -/
def State.installSet (s : State) (p : List Byte) : State :=
  let late := s.setDefers p
  let first := s.pclass = 14 && s.waves.before = .none
  let s := { s with store := s.store.put [(waveBase, p)]
                    waves := { s.waves with valid := true, deferred := late, spoilt := false } }
  let s := { s with waves := { s.waves with inForce := s.setChoice } }
  (if first then s.boardComesUp else s.boardGone.modesGone).notice srcWavesetInstalled (wsSetId p + 65536 * bitOf 0 late)

/-- A page of the waveform store has been retired while a WAVESET was written: it is answered NOT_PERMITTED, and the set
that the store held stays in force (R635, Table 15.4; log 31). -/
def State.writingRetired (s : State) (j : Job) : State :=
  { s with waves := { s.waves with inForce := s.waves.before, valid := s.store.waveSound } }.failLetter j ⟨stNotPermitted, 0⟩ false

/-- WAVESET_READBACK_END (R392, R394, R395, R635); a read-back that does not match leaves the set unwritten (log 32). -/
def execWavesetReadbackEnd (matched : Bool) (s : State) : Answer :=
  match s.waveset .writing with
  | none => .next s
  | some j =>
    match j.letter with
    | none => .next s
    | some l =>
      if s.awake = true ∧ s.discharging = false ∧ matched = true then
        s.ends (if s.store.waveRetired then s.writingRetired j else (s.installSet l.body).conclude j stDelivered 0)
      else .next s

end Sys2Proof.Machine
end

