-- ==== Sys2Proof/Machine/DeskCmds.lean ====
section
/-! DEFINITION. Deadlines and timers of tenants and stamp, the notice desk's loads, and the TAP: the meanings of
STALENESS_DEADLINE to TAP_INSTRUCTION that stand in no other file. -/
namespace Sys2Proof.Machine

/-! ## Deadlines (R285, R288, R486) -/

/-- The deadline of a stored reading in ms of uptime (R486). -/
def State.deadline (s : State) (r : Reading) : Nat := r.time.getD 0 + ms (3 * rdInterval r.body * s.staleMult)

/-- STALENESS_DEADLINE (R482, R486, R487, R492, R507, R512); in fuse mode too, which checks no store (R611). -/
def execStalenessDeadline (t : Tenant) (s : State) : Answer :=
  match s.store.readings[t] with
  | none => .next s
  | some r =>
    if s.counts = true ∧ s.mode ≠ .coldStart ∧ r.stale = false ∧ s.deadline r ≤ s.clock.uptime then
      let u := { s with store := { s.store with readings := s.store.readings.set t (some { r with stale := true }) } }
      s.ends ((u.notice srcStale t.val).wake .active)
    else .next s

/-- A time has come. -/
def reached (t : Option Nat) (now : Nat) : Bool :=
  match t with
  | some e => e ≤ now
  | none => false

/-- CAUTION_PERIOD_END (R285, R291). -/
def execCautionPeriodEnd (t : Tenant) (s : State) : Answer :=
  let x := s.desks.standing[t]
  if s.counts = true ∧ x.fault = .cautioned ∧ reached x.cautionEnd s.clock.uptime = true then
    s.ends (s.setFault t { x with fault := .healthy, strikes := 0, cautionEnd := none })
  else .next s

/-- SUSPENSION_END (R288, R291). -/
def execSuspensionEnd (t : Tenant) (s : State) : Answer :=
  let x := s.desks.standing[t]
  if s.counts = true ∧ x.fault = .suspended ∧ reached x.suspensionEnd s.clock.uptime = true then
    s.ends (s.setFault t { x with fault := .cautioned, strikes := 0, suspensionEnd := none
                                  cautionEnd := some (s.clock.uptime + cautionMs) })
  else .next s

/-! ## The stamp (R515 to R517, R522) -/

/-- STAMP_FALLBACK (R517). -/
def execStampFallback (n : Fin 32) (s : State) : Answer :=
  match s.stamp.fallback[n] with
  | none => .next s
  | some (t, on) =>
    if s.counts = true ∧ t ≤ s.clock.uptime then
      let p := { s.stamp with segs := s.stamp.segs.set n (if on then 1 else 0), fallback := s.stamp.fallback.set n none }
      s.ends ({ s with stamp := p }.notice srcStampFallback n.val)
    else .next s

/-- STAMP_FIELD_UPDATE (R515), once in each second of uptime (R516). -/
def execStampFieldUpdate (s : State) : Answer :=
  let second := s.clock.uptime / 1000
  if s.counts = true ∧ s.stamp.driven = true ∧ s.stamp.fieldSecond ≠ some second then
    .next { s with stamp := { s.stamp with field := s.fieldNow, fieldSecond := some second } }
  else .next s

/-- LCD_VOLTAGE_DOZE (R64, R522, R584). -/
def execLcdVoltageDoze (die : Int) (s : State) : Answer :=
  if s.mode = .doze then .next { s with dieTemp := die, stamp := { s.stamp with vlcd := s.vlcdAt die } } else .next s

/-! ## The system rows (R505) -/

/-- SYSTEM_ROWS_RENDER (R505). -/
def execSystemRowsRender (s : State) : Answer :=
  let late := match s.idle.systemRowsAt with
    | some t => decide (t + 60000 ≤ s.clock.uptime)
    | none => true
  if s.awake = true ∧ s.start.quickChecked = true ∧ late = true ∧ s.idle.systemRows ≠ some s.systemFields then
    s.ends (s.renderDue 32)
  else .next s

/-! ## The notice desk (R528 to R547) -/

/-- The group of a source. -/
def sourceGroup (src : Fin 64) : Fin 8 := ⟨src.val / 8, by omega⟩

/-- Class of a subscription (R532, R541). -/
def Subscription.cls (x : Subscription) (src : Fin 64) : TxClass := if x.fast.getLsbD src.val then .fast else .general

/-- The identifier of a NOTICE (Table 13.3). -/
def noticeGroup (cls : TxClass) (src : Fin 64) : BitVec 3 :=
  match cls with
  | .fast => 0
  | .receipt | .general => BitVec.ofNat 3 (max 1 (sourceGroup src).val)

/-- The NOTICE letter for a subscriber, its octets still to come. -/
def State.noticeLetter (s : State) (src : Fin 64) (t : Tenant) : OutLetter :=
  let x := s.desk.subs[t]
  let i := x.inlet.getD (.channel .a)
  let cls := x.cls src
  { id := s.desks.nextOut, kind := kNotice, group := noticeGroup cls src, sub := x.subs[src], tenant := t,
    stream := BitVec.ofNat 4 (src.val % 8), cls := cls, octets := [], toA := s.onChannel i .a, toB := s.onChannel i .b,
    port := match i with | .courier p => some p | .channel _ => none, docket := none, refusal := none, unsent := false }

/-- A channel that the letter names can take it now (R537, R690). -/
def State.chanTakes (s : State) (o : OutLetter) (c : Chan) : Bool :=
  (match c with | .a => o.toA | .b => o.toB) && (s.chan c).st.transmits && (s.chan c).takes (s.outIdent o) o.cls false

/-- A delivery inlet can take a NOTICE (R537, R683). -/
def State.inletTakes (s : State) (o : OutLetter) : Bool :=
  s.canSeal o.tenant &&
    match o.port with
    | some p => ((s.port p).slots .general).length < portSlots
    | none => s.chanTakes o .a || s.chanTakes o .b

/-- The subscriber that receives the next NOTICE of a source (R535, R536). -/
def State.recipient (s : State) (src : Fin 64) : Option Tenant :=
  nextTurn (s.desk.sources[src]).last fun t => s.eligible src t && s.inletTakes (s.noticeLetter src t)

/-- A group's hold-off timer runs (R545). -/
def State.holding (s : State) (g : Fin 8) : Bool :=
  match s.desk.holdOff[g] with
  | some t => s.clock.uptime < t
  | none => false

/-- A source has a NOTICE that can be loaded now (R528, R531, R538, R545, R546); TORN waits for the end of the roll call
(R477). -/
def State.loadable (s : State) (src : Fin 64) : Option Tenant :=
  if (s.desk.sources[src]).due && (src ≠ srcTorn || s.start.announced) then
    (s.recipient src).filter fun t => (s.desk.subs[t]).cls src = .fast || !(s.holding (sourceGroup src))
  else none

/-- The lowest source that can be loaded (R539), and its recipient. -/
def State.nextNotice (s : State) : Option (Fin 64 × Tenant) :=
  (List.finRange 64).findSome? fun i => (s.loadable i).map fun t => (i, t)

/-- The NOTICE body (Table 6.22, R526, R529). -/
def Source.body (x : Source) (src : Fin 64) : List Byte :=
  leBytes x.uptime 6 ++ leBytes x.boot.toNat 4 ++ leBytes (bitOf 0 x.watch) 1 ++ leBytes src.val 1
    ++ leBytes x.counter 1 ++ leBytes 0 3 ++ leBytes x.detail.toNat 4

/-- Hold-off of a subscriber in s (R59, R544). -/
def State.holdOffOf (s : State) (t : Tenant) : Nat :=
  let h := ((s.fuses.tenants[t]).holdOff).toNat
  if h = 0 then s.holdOffDefault else h - 1

/-- The re-pend test of a group (R547). -/
def Desk.repend (d : Desk) (g : Fin 8) : Desk :=
  { d with sources := Vector.ofFn fun i =>
      let x := d.sources[i]
      if sourceGroup i = g && !x.pending && !x.inHand && x.counter ≠ 0 then { x with pending := true } else x }

/-- A hold-off starts; one of 0 s expires at once, with its re-pend test (R544, R547). -/
def Desk.startHold (d : Desk) (g : Fin 8) (now seconds : Nat) : Desk :=
  if seconds = 0 then { d with holdOff := d.holdOff.set g none }.repend g
  else { d with holdOff := d.holdOff.set g (some (now + ms seconds)) }

/-- The desk's part of a load: COUNT, INHAND, last recipient, NUMBER, hold-off (R529, R536, R544, R546). -/
def State.takeInHand (s : State) (src : Fin 64) (t : Tenant) (f : Flying) (cls : TxClass) : State :=
  let x := s.desk.sources[src]
  let sub := s.desk.subs[t]
  let d := { s.desk with sources := s.desk.sources.set src { x with inHand := true, last := t }
                         subs := s.desk.subs.set t { sub with sent := sub.sent + 1 }
                         flying := s.desk.flying ++ [f] }
  { s with desk := if cls = .fast then d else d.startHold (sourceGroup src) s.clock.uptime (s.holdOffOf t) }

/-- One channel takes the NOTICE. -/
def State.loadChan (s : State) (o : OutLetter) (c : Chan) (yes : Bool) : State :=
  if yes then
    s.setChan c ((s.chan c).load { letter := o.id, ident := s.outIdent o, cls := o.cls,
                                   rest := fragments (!s.classical) o.octets, isRollcall := false })
  else s

/-- A NOTICE is sealed, loaded and in hand (R529, R537, R541 to R544); a channel it names that cannot take it now takes it
when it can (R690). -/
def State.loadNotice (s : State) (src : Fin 64) (t : Tenant) : State :=
  let o := s.noticeLetter src t
  let x := s.desk.sources[src]
  let a := s.chanTakes o .a
  let b := s.chanTakes o .b
  let (s, octets) := s.sealOut t kNotice o.stream ((s.desk.subs[t]).sent).toNat (x.body src)
  let o := { o with octets := octets }
  let s := { s with desks := { s.desks with nextOut := s.desks.nextOut + 1 } }
  let s := match o.port with
    | some p => s.setPort p ((s.port p).push { o with cls := .general, toA := false, toB := false, port := none })
    | none =>
      let s := (s.loadChan o .a a).loadChan o .b b
      let late := { o with toA := o.toA && !a, toB := o.toB && !b }
      if late.left = 0 then s else { s with desks := { s.desks with out := s.desks.out ++ [late] } }
  s.takeInHand src t { letter := o.id, source := src, count := x.counter, onA := o.toA, onB := o.toB, port := o.port,
                       sent := false } o.cls

/-- NOTICE_LOAD (R526, R528, R529, R531, R535 to R546, R553, R555, R683). DESIGN CHOICE: under a fuse fault a subscription
that DOZE has kept still sends on its courier port (R121, R559; log 54). -/
def execNoticeLoad (s : State) : Answer :=
  if s.awake = true ∧ s.shutting = false ∧ s.start.inletsOpen = true then
    match s.nextNotice with
    | some (src, t) => s.ends (s.loadNotice src t)
    | none => .next s
  else .next s

/-- REPEND_TEST (R547, R589). -/
def execRependTest (g : Fin 8) (s : State) : Answer :=
  if s.counts = true ∧ s.holding g = false then
    s.ends { s with desk := { s.desk with holdOff := s.desk.holdOff.set g none }.repend g }
  else .next s

/-! ## TAP (R117) -/

/-- The test lock is in force (R117), by the bits as they are burned (R83), whether this boot has read them yet or not. -/
def State.tapLocked (s : State) : Bool :=
  lifeOf s.fuses.byte ≠ .blank && tlockReads s.fuses.byte && !s.pins.resetLow

/-- The instructions that the lock lets pass. -/
def tapAlways : TapOp → Bool
  | .bypass | .idcode | .samplePreload => true
  | .other => false

/-- TAP_INSTRUCTION (R5, R117, R651); `ir`: the instruction register value. The TAP is unpowered in WATCH and DOZE. -/
def execTapInstruction (op : TapOp) (ir : Byte) (s : State) : Answer :=
  if s.mode = .off ∨ s.mode = .watch ∨ s.mode = .doze ∨ s.pins.vio = false then .next s
  else if s.tapLocked && !tapAlways op then s.ends (s.notice srcTapRefused ir.toNat)
  else .next { s with tap := op, desk := s.desk.turn }

end Sys2Proof.Machine
end

