-- ==== Sys2Proof/Machine/Dispatch.lean ====
section
/-! DEFINITION. The dispatch: one arm per command, each one direct call of its meaning. -/
namespace Sys2Proof.Machine

def exec (i : Instr) (s : State) : Host.Outcome State Fault Refusal :=
  match i with
  | .vsysRestored => Sys2Proof.Machine.execVsysRestored s
  | .resetAsserted => Sys2Proof.Machine.execResetAsserted s
  | .resetNegated => Sys2Proof.Machine.execResetNegated s
  | .strapSamplingEnd r => Sys2Proof.Machine.execStrapSamplingEnd r s
  | .fuseArrayRead => Sys2Proof.Machine.execFuseArrayRead s
  | .stampDriveStart => Sys2Proof.Machine.execStampDriveStart s
  | .coreSwitchToPll => Sys2Proof.Machine.execCoreSwitchToPll s
  | .pllLockTimeout => Sys2Proof.Machine.execPllLockTimeout s
  | .quickCheckEnd found => Sys2Proof.Machine.execQuickCheckEnd found s
  | .fullCheckEnd found => Sys2Proof.Machine.execFullCheckEnd found s
  | .standbySettleEnd c => Sys2Proof.Machine.execStandbySettleEnd c s
  | .refclkLoss => Sys2Proof.Machine.execRefclkLoss s
  | .inputLoss => Sys2Proof.Machine.execInputLoss s
  | .closingTimeEnd => Sys2Proof.Machine.execClosingTimeEnd s
  | .holdUpCollapse => Sys2Proof.Machine.execHoldUpCollapse s
  | .fastDischargeEnd => Sys2Proof.Machine.execFastDischargeEnd s
  | .collapseRestart => Sys2Proof.Machine.execCollapseRestart s
  | .vioLoss => Sys2Proof.Machine.execVioLoss s
  | .vioReturn => Sys2Proof.Machine.execVioReturn s
  | .hvgoodAsserted => Sys2Proof.Machine.execHvgoodAsserted s
  | .hvgoodNegated => Sys2Proof.Machine.execHvgoodNegated s
  | .hvgoodTimeout => Sys2Proof.Machine.execHvgoodTimeout s
  | .railsInRegulation => Sys2Proof.Machine.execRailsInRegulation s
  | .railOffTimer => Sys2Proof.Machine.execRailOffTimer s
  | .boardLoopCheck ohms => Sys2Proof.Machine.execBoardLoopCheck ohms s
  | .stampLoopCheck ohms => Sys2Proof.Machine.execStampLoopCheck ohms s
  | .chargerResistorFault r ohms => Sys2Proof.Machine.execChargerResistorFault r ohms s
  | .valueResistorDrift r ohms => Sys2Proof.Machine.execValueResistorDrift r ohms s
  | .chargerPulse mv => Sys2Proof.Machine.execChargerPulse mv s
  | .dieHot temp => Sys2Proof.Machine.execDieHot temp s
  | .quietEntry => Sys2Proof.Machine.execQuietEntry s
  | .watchEntry wake => Sys2Proof.Machine.execWatchEntry wake s
  | .wakeAsserted => Sys2Proof.Machine.execWakeAsserted s
  | .dozeAsserted wake => Sys2Proof.Machine.execDozeAsserted wake s
  | .dozeNegated => Sys2Proof.Machine.execDozeNegated s
  | .watchListenerAccept c f => Sys2Proof.Machine.execWatchListenerAccept c f s
  | .load payload => Sys2Proof.Machine.execLoad payload s
  | .check e => Sys2Proof.Machine.execCheck e s
  | .burn arming e => Sys2Proof.Machine.execBurn arming e s
  | .burnEnd stop => Sys2Proof.Machine.execBurnEnd stop s
  | .read => Sys2Proof.Machine.execRead s
  | .state e => Sys2Proof.Machine.execState e s
  | .badCommand code => Sys2Proof.Machine.execBadCommand code s
  | .busFrameReceived c f => Sys2Proof.Machine.execBusFrameReceived c f s
  | .letterCompletion c tie => Sys2Proof.Machine.execLetterCompletion c tie s
  | .busError c e => Sys2Proof.Machine.execBusError c e s
  | .busOffRecoveryEnd c nonce => Sys2Proof.Machine.execBusOffRecoveryEnd c nonce s
  | .stuckDominant c => Sys2Proof.Machine.execStuckDominant c s
  | .deadRecovery c => Sys2Proof.Machine.execDeadRecovery c s
  | .layUpEnd c dominant => Sys2Proof.Machine.execLayUpEnd c dominant s
  | .integrationEnd c nonce => Sys2Proof.Machine.execIntegrationEnd c nonce s
  | .rollcallDelayEnd c => Sys2Proof.Machine.execRollcallDelayEnd c s
  | .rollcallWindowEnd c => Sys2Proof.Machine.execRollcallWindowEnd c s
  | .rateMatchTimeout c => Sys2Proof.Machine.execRateMatchTimeout c s
  | .frameStart c => Sys2Proof.Machine.execFrameStart c s
  | .arbitrationLost c => Sys2Proof.Machine.execArbitrationLost c s
  | .txFrameEnd c => Sys2Proof.Machine.execTxFrameEnd c s
  | .contextInactivity c key => Sys2Proof.Machine.execContextInactivity c key s
  | .csFall p => Sys2Proof.Machine.execCsFall p s
  | .courierSync p sync => Sys2Proof.Machine.execCourierSync p sync s
  | .courierLength p hdr => Sys2Proof.Machine.execCourierLength p hdr s
  | .csRise p rest tie => Sys2Proof.Machine.execCsRise p rest tie s
  | .sealCheck => Sys2Proof.Machine.execSealCheck s
  | .letterWalk race found => Sys2Proof.Machine.execLetterWalk race found s
  | .earmarkRequest who => Sys2Proof.Machine.execEarmarkRequest who s
  | .weighInTimer => Sys2Proof.Machine.execWeighInTimer s
  | .vholdBelowGuard mv => Sys2Proof.Machine.execVholdBelowGuard mv s
  | .weighInEnd v0 dv ihv => Sys2Proof.Machine.execWeighInEnd v0 dv ihv s
  | .partCopyStart job => Sys2Proof.Machine.execPartCopyStart job s
  | .partCopyEnd job => Sys2Proof.Machine.execPartCopyEnd job s
  | .laneGrant loop => Sys2Proof.Machine.execLaneGrant loop s
  | .panelFrameStart found => Sys2Proof.Machine.execPanelFrameStart found s
  | .roundWriteBackEnd lane => Sys2Proof.Machine.execRoundWriteBackEnd lane s
  | .remapCopyEnd => Sys2Proof.Machine.execRemapCopyEnd s
  | .releaseInstant cut => Sys2Proof.Machine.execReleaseInstant cut s
  | .stageExpiry lane => Sys2Proof.Machine.execStageExpiry lane s
  | .stagedEarmarkLapse job => Sys2Proof.Machine.execStagedEarmarkLapse job s
  | .weighHoldExpiry weigh => Sys2Proof.Machine.execWeighHoldExpiry weigh s
  | .rotationEnd counts die => Sys2Proof.Machine.execRotationEnd counts die s
  | .stalenessDeadline t => Sys2Proof.Machine.execStalenessDeadline t s
  | .cautionPeriodEnd t => Sys2Proof.Machine.execCautionPeriodEnd t s
  | .suspensionEnd t => Sys2Proof.Machine.execSuspensionEnd t s
  | .peekSnapshot job found => Sys2Proof.Machine.execPeekSnapshot job found s
  | .wavesetInstallStart => Sys2Proof.Machine.execWavesetInstallStart s
  | .wavesetReadbackEnd matched => Sys2Proof.Machine.execWavesetReadbackEnd matched s
  | .stampFallback n => Sys2Proof.Machine.execStampFallback n s
  | .stampFieldUpdate => Sys2Proof.Machine.execStampFieldUpdate s
  | .lcdVoltageDoze die => Sys2Proof.Machine.execLcdVoltageDoze die s
  | .systemRowsRender => Sys2Proof.Machine.execSystemRowsRender s
  | .noticeLoad => Sys2Proof.Machine.execNoticeLoad s
  | .rependTest g => Sys2Proof.Machine.execRependTest g s
  | .energyShortTimer => Sys2Proof.Machine.execEnergyShortTimer s
  | .renderWaitTimer tile => Sys2Proof.Machine.execRenderWaitTimer tile s
  | .tapInstruction op ir => Sys2Proof.Machine.execTapInstruction op ir s
  | .railDisableEnd => Sys2Proof.Machine.execRailDisableEnd s
  | .resetSequenceEnd => Sys2Proof.Machine.execResetSequenceEnd s

end Sys2Proof.Machine
end

