-- ==== Sys2Proof/Machine/Outputs.lean ====
section
/-! DEFINITION. The node's outputs as its state gives them: standby outputs, CTX, courier pins, panel link, rails and stamp
pins (R136, R164, R181, R198, R206, R340 to R347, R467, R521, R523, R645, R649, R654 to R656). No command reads them; STATUS, the
flags and the stamp's segments have definitions of their own. -/
namespace Sys2Proof.Machine

/-- Level of a logic output. -/
inductive Level where
  | low
  | high
  | highZ
  /-- high impedance, with the 100 kΩ pull-down of the panel link (Table 16.4, R655) -/
  | pullDown
  /-- a running clock -/
  | clock
deriving DecidableEq, Repr

/-! ## Bus and courier pins -/

/-- States with the standby output asserted (Table 4.7). -/
def ChanState.standsBy : ChanState → Bool
  | .reset | .unused | .held | .laidUp | .unpowered => true
  | .matching | .silent | .integrating | .errorActive | .errorPassive | .busOff | .dead | .offBus | .watchListener => false

/-- STBYA, STBYB, asserted high; unpowered in OFF (R164, Tables 4.7, 16.4). -/
def State.standby (s : State) (c : Chan) : Level :=
  if s.mode = .off then .highZ else if (s.chan c).st.standsBy then .high else .low

/-- CTXA, CTXB while the channel sends no dominant bit: high is recessive (Tables 4.7, 16.3, 16.4). -/
def State.ctxIdle (s : State) : Level := if s.mode = .off then .highZ else .high

/-- The channel may send dominant bits, in frames, error flags and acknowledgements (Table 4.7). -/
def State.drivesCtx (s : State) (c : Chan) : Bool := s.mode ≠ .off && (s.chan c).st.transmits

/-- Octet `n` that SO shifts in the running transaction, 0x00 past the end of what was loaded, or when nothing was (R198);
`none`: SO at high impedance (R181, R206, R608). -/
def State.shifts (s : State) (p : Port) (n : Nat) : Option Byte :=
  let x := s.port p
  if x.live && x.csLow && x.rx ≠ .idle then some (x.so.getD n 0) else none

/-- SCK idles low in mode 0 and high in mode 3 (R177, Table 2.1). -/
def State.sckIdle (s : State) : Level := if s.setup.cpmode then .high else .low

/-- An edge of SCK. -/
inductive SckEdge where
  | rising
  | falling
deriving DecidableEq, Repr

/-- In both modes the port samples SI on the rising edge and changes SO on the falling one (R177). -/
def SckEdge.samples : SckEdge → Bool
  | .rising => true
  | .falling => false
def SckEdge.changes (e : SckEdge) : Bool := !e.samples

/-- The bits of an octet in the order of their shifting: most significant first (R177). -/
def shiftBits (b : Byte) : List Bool := (List.range 8).map fun i => b.getLsbD (7 - i)

/-- The octets of the bits that SI carried at the rising edges (R177). -/
def siOctets : List Bool → List Byte
  | a :: b :: c :: d :: e :: f :: g :: h :: r => BitVec.ofBoolListBE [a, b, c, d, e, f, g, h] :: siOctets r
  | _ => []

/-- The place of the bit on SO after `falls` falling edges of SCK: in mode 0 the first bit stands from the CS# fall, in
mode 3 the first falling edge presents it (R177). -/
def State.soPlace (s : State) (falls : Nat) : Option Nat :=
  if s.setup.cpmode then (if falls = 0 then none else some (falls - 1)) else some falls

/-- The bit on SO after `falls` falling edges of SCK; `none`: at high impedance, or no bit is presented yet. -/
def State.soBit (s : State) (p : Port) (falls : Nat) : Option Bool :=
  (s.soPlace falls).bind fun n => (s.shifts p (n / 8)).map fun b => (shiftBits b).getD (n % 8) false

/-- CPx_ATTN#, driven while the port is live (R202, R206, Table 16.4). -/
def State.attn (s : State) (p : Port) : Level :=
  if !(s.port p).live then .highZ else if s.attnLow p then .low else .high

/-! ## The panel link (Table 9.1) -/

/-- GDDIR: high from the end of strap sampling, low before it and in reset (R649, Table 16.4). -/
def State.gddir (s : State) : Level :=
  match s.mode with
  | .off => .pullDown
  | .inReset => .low
  | .coldStart => if s.start.strapped then .high else .low
  | .active | .quiet | .watch | .doze => .high

/-- HVEN (R347, R348). DESIGN CHOICE: it falls when a disable or a fast discharge begins, whose HVEN step the spec does
not give (log 71). -/
def State.hven (s : State) : Level :=
  if s.mode = .off then .pullDown else if s.setup.hvsrc && s.railsEnabled then .high else .low

/-- A lane drives pixel (x, y) in the latest panel frame: its row has received a frame there (R350, R352). -/
def Lane.drives (l : Lane) (x y : Nat) : Bool :=
  l.st.started && l.st ≠ .paused && l.rect.contains x y
    && l.prev.getD (y - l.rect.y0) 0 < l.got.getD (y - l.rect.y0) 0

/-- A row of the latest panel frame is driven (R350); the scan of a REFCLK loss drives the rows of the lanes that it
pauses (R569). -/
def State.drivenRow (s : State) (y : Nat) : Bool :=
  if s.board.blank then s.board.lanes.toList.any fun l => l.st = .paused && l.rect.y0 ≤ y && y ≤ l.rect.y1
  else s.board.framing && s.board.lanes.toList.any fun l => l.drives l.rect.x0 y

/-- The code that a driven row carries for a pixel in the latest panel frame: its lane's waveform under a running round,
and 0b00 for every other pixel (R342), for pixels that can no longer be driven (Tables 15.3, 15.4), and in the scan of a
REFCLK loss (R569). -/
def State.linkCode (s : State) (x y : Nat) : BitVec 2 :=
  match (if s.board.framing && !s.board.blank then s.board.lanes.toList.find? (·.drives x y) else none) with
  | none => 0
  | some l =>
    if s.store.frozen x y || l.dropped.any fun d => d.1.contains x y then 0
    else (s.laneRound l).code s.store x y (l.got.getD (y - l.rect.y0) 0)

/-- SD[15:0]: SD[2k+1:2k] is the code of pixel 8j + k (Table 9.1). -/
def sdWord (code : Nat → BitVec 2) (j : Nat) : BitVec 16 :=
  code (8 * j + 7) ++ code (8 * j + 6) ++ code (8 * j + 5) ++ code (8 * j + 4)
    ++ code (8 * j + 3) ++ code (8 * j + 2) ++ code (8 * j + 1) ++ code (8 * j)

/-- What an event of the panel link does to its pins. -/
inductive LinkEvent where
  | sdsp (on : Bool)
  | sd (word : BitVec 16)
  | sdoe (on : Bool)
  | gdoe (on : Bool)
  | sdle (on : Bool)
  /-- rising edge, with the level of GDSP -/
  | gdckRise (gdsp : Bool)
  | gdckFall
deriving DecidableEq, Repr

/-- One driven line over `n` SDCK cycles of data, by the cycle of each event (Table 9.3). DESIGN CHOICE: SDLE, High at N + 6
to N + 7, falls at N + 7 (log 53). -/
def lineEvents (code : Nat → BitVec 2) (n : Nat) (first : Bool) : List (Nat × LinkEvent) :=
  [(0, .sdsp true)] ++ ((List.range n).map fun j => (j, .sd (sdWord code j))) ++ [(1, .sdsp false)]
    ++ ((List.range 4).map fun j => (n + j, .sd 0))
    ++ [(n + 4, .sdoe false), (n + 4, .gdoe false), (n + 6, .sdle true), (n + 7, .sdle false), (n + 8, .gdckRise first),
        (n + 10, .sdoe true), (n + 10, .gdoe true)]

/-- One skipped row (Table 9.4). -/
def skipEvents (first : Bool) : List (Nat × LinkEvent) :=
  [(0, .sdoe false), (0, .gdoe false), (4, .gdckRise first), (8, .gdckFall)]

/-- The line of a driven row of the latest panel frame; row 0 is scanned first (R347A). -/
def State.rowEvents (s : State) (y : Nat) : List (Nat × LinkEvent) :=
  if s.drivenRow y then lineEvents (fun x => s.linkCode x y) (s.boardWH.1 / 8) (decide (y = 0))
  else skipEvents (decide (y = 0))

/-- Line period and skip period in SDCK cycles (R343). -/
def lineCycles (w : Nat) : Nat := w / 8 + 24
def skipCycles : Nat := 16

/-- The latest scan in SDCK cycles: a fill line, then every row (R347A). -/
def State.scanCycles (s : State) : Nat := (1 + s.board.driven) * lineCycles s.boardWH.1 + s.board.skipped * skipCycles

/-! ## Rails -/

/-- The rails and what their sequences do to them. -/
inductive Rail where
  | vpos
  | vneg
  | vgh
  | vgl
  | vcom
deriving DecidableEq, Repr

/-- Steps of Tables 9.5, 9.6 and 11.6. -/
inductive RailStep where
  | enable (r : Rail)
  | disable (r : Rail)
  /-- VCOM driven to the VCOMSET value, or to 0 V -/
  | vcomSet
  | vcomZero
  | inRegulation
  | sdZero
  /-- one pulse -/
  | sdle
  | sdoe (on : Bool)
  | gdoe (on : Bool)
  /-- GDSP held high, GDCK at 10 MHz: each edge adds a conducting row -/
  | gateFlood
  | everyRow
  | crowbar (r : Rail)
  | off
deriving DecidableEq, Repr

/-- The rail enable, by times in µs: Table 9.5, or R347 with HVSRC 1 and time 0 at HVGOOD. -/
def enableSteps (hvsrc : Bool) : List (Nat × RailStep) :=
  if hvsrc then [(2000, .vcomSet), (4000, .inRegulation)]
  else [(0, .enable .vgl), (500, .enable .vneg), (1000, .enable .vgh), (1500, .enable .vpos), (2000, .vcomSet),
        (4000, .inRegulation)]

/-- The disable of the internal rails, by times in µs (Table 9.6). -/
def disableSteps : List (Nat × RailStep) :=
  [(0, .sdoe false), (0, .gdoe false), (0, .vcomZero), (200, .disable .vpos), (200, .disable .vneg),
   (5000, .disable .vgh), (5500, .disable .vgl)]

/-- The fast discharge of a board of height `h`, by times in units of 0.1 µs (Table 11.6, R656). -/
def dischargeSteps (h : Nat) : List (Nat × RailStep) :=
  [(0, .sdZero), (0, .sdle), (0, .crowbar .vpos), (0, .crowbar .vneg), (20, .sdoe true), (50, .gateFlood), (50, .gdoe true),
   (50 + h, .everyRow), (10000, .vcomZero), (15000, .gdoe false), (15000, .sdoe false), (15000, .crowbar .vgh),
   (15000, .crowbar .vgl), (20000, .off)]

/-- The sequence of a state of the rails, by times in units of 0.1 µs since its start. -/
def State.stepsOf (s : State) (rails : Rails) : List (Nat × RailStep) :=
  match rails with
  | .enabling => (enableSteps s.setup.hvsrc).map fun x => (10 * x.1, x.2)
  | .disabling => disableSteps.map fun x => (10 * x.1, x.2)
  | .crowbar => dischargeSteps s.boardWH.2
  | .off | .waitGood | .on => []

/-- The sequence that runs. -/
def State.sequence (s : State) : List (Nat × RailStep) := s.stepsOf s.board.rails

/-- A step of a sequence has come by time `t`. -/
def cameIn (l : List (Nat × RailStep)) (t : Nat) (x : RailStep) : Bool := l.any fun e => e.1 ≤ t && e.2 = x

/-- A step of the running sequence has come by time `t`. -/
def State.came (s : State) (t : Nat) (x : RailStep) : Bool := cameIn s.sequence t x

/-- HVSRC as latched, or before strap sampling as it stands on its pin. -/
def State.external (s : State) (hvsrc : Bool) : Bool := if s.start.strapped then s.setup.hvsrc else hvsrc

/-- What stands on a rail pin. -/
inductive RailPin where
  | vss
  /-- driven by the node, or by the regulator while HVEN is high -/
  | driven
  | highZ
deriving DecidableEq, Repr

/-- What stands on a rail pin at time `t` of the rails' sequence, the fast discharge apart (R345, R347, Tables 9.5, 9.6,
16.4). `steps`: that sequence; `ext`: the pin is supplied by the regulator. -/
def Rails.pin (rails : Rails) (steps : List (Nat × RailStep)) (ext : Bool) (r : Rail) (t : Nat) : RailPin :=
  let down : RailPin := if ext then .highZ else .vss
  let up := fun (on : Bool) => if on then RailPin.driven else down
  match rails with
  | .off | .crowbar => down
  | .waitGood => up ext
  | .enabling => up (ext || cameIn steps t (if r = .vcom then .vcomSet else .enable r))
  | .on => .driven
  | .disabling => up (!ext && !(cameIn steps t (if r = .vcom then .vcomZero else .disable r)))

/-- What stands on a rail pin at time `t` of the running sequence (R656, Table 11.6); `hvsrc`: the level of that strap;
`cut`: the time that the sequence which a fast discharge cuts had reached. A pin stays as it was until its step. -/
def State.railPin (s : State) (hvsrc : Bool) (r : Rail) (t cut : Nat) : RailPin :=
  let ext := s.external hvsrc && r ≠ .vcom
  if s.mode = .off then .highZ
  else if s.board.rails = .crowbar then
    if s.came t (if r = .vcom then .vcomZero else .crowbar r) then .vss
    else s.board.stood.pin (s.stepsOf s.board.stood) ext r cut
  else s.board.rails.pin s.sequence ext r t

/-- The panel link's logic outputs but GDDIR and HVEN. -/
inductive LinkPin where
  | sd
  | sdck
  | sdsp
  | sdle
  | sdoe
  | gdck
  | gdsp
  | gdoe
deriving DecidableEq, Repr

/-- Level of a panel-link output outside a scan (R347A, R654, Table 16.4), and at time `t` of a fast discharge (R656,
Table 11.6). Within a scan the lines of `State.rowEvents` move it. -/
def State.linkPin (s : State) (p : LinkPin) (t : Nat) : Level :=
  let on := fun (b : Bool) => if b then Level.high else .low
  if s.mode = .off then .pullDown
  else if s.board.rails = .crowbar then
    match p with
    | .sd | .sdck | .sdsp => .low
    | .sdle => on (t = 0)
    | .sdoe => on (s.came t (.sdoe true) && !(s.came t (.sdoe false)))
    | .gdsp => on (s.came t .gateFlood)
    | .gdck => if s.came t .gateFlood && !(s.came t .everyRow) then .clock else .low
    | .gdoe => on (s.came t (.gdoe true) && !(s.came t (.gdoe false)))
  else .low

/-! ## Stamp pins (Table 12.7) -/

/-- Levels of the stamp pins, in thirds of V_LCD; `none`: high impedance, in OFF (Table 16.4). -/
abbrev LcdLevel := Option (Fin 4)

/-- COM `q` in half-slot `half` of common `k`: selected at V_LCD and then at 0, unselected at 1/3 and then at 2/3; VSS
while blanked (R521, R523). -/
def State.comLevel (s : State) (q k : Fin 4) (half : Bool) : LcdLevel :=
  if s.mode = .off then none
  else if s.stampBlank then some 0
  else if q = k then some (if half then 0 else 3)
  else some (if half then 2 else 1)

/-- SEG `p` in half-slot `half` of common `k`: lit at 0 and then at V_LCD, unlit at 2/3 and then at 1/3; VSS while blanked
(R521, R523). -/
def State.segLevel (s : State) (p : Nat) (k : Fin 4) (half : Bool) : LcdLevel :=
  if s.mode = .off then none
  else if s.stampBlank then some 0
  else if s.segment p k then some (if half then 3 else 0)
  else some (if half then 1 else 2)

/-- The half-slot of a moment of the watch oscillator, in units of 1/512 s: a frame of 64 Hz has eight (R521). -/
def halfSlot (t : Nat) : Fin 4 × Bool := (⟨t % 8 / 2, by omega⟩, decide (t % 2 = 1))

/-- COM less SEG in one half-slot, in thirds of V_LCD. -/
def State.across (s : State) (p : Nat) (q k : Fin 4) (half : Bool) : Int :=
  match s.comLevel q k half, s.segLevel p k half with
  | some a, some b => (a.val : Int) - b.val
  | _, _ => 0

/-! ## The other pins of Table 16.4 -/

/-- The columns of Table 16.4. -/
inductive PinColumn where
  | reset
  | coldStart
  | running
  | watch
  | doze
  | off
deriving DecidableEq, Repr

/-- The column that governs (R654). That of the cold start begins with the release of the internal reset; until then the node
is in reset (R650; log 59). -/
def State.pinColumn (s : State) : PinColumn :=
  match s.mode with
  | .off => .off
  | .inReset => .reset
  | .coldStart => if s.start.held then .reset else if s.start.inletsOpen then .running else .coldStart
  | .active | .quiet => .running
  | .watch => .watch
  | .doze => .doze

/-- The crack-loop source of the stamp, CKSA, measures (R457, Table 16.4). -/
def State.stampLoopMeasured (s : State) : Bool := s.pinColumn = .coldStart || s.pinColumn = .running

/-- The crack-loop source of the board, CKBA, measures: never without a board, and in a cold start only while the rails are
enabled (R50, R454, Table 16.4). -/
def State.boardLoopMeasured (s : State) : Bool :=
  s.boardSize.isSome && match s.pinColumn with
    | .coldStart => s.railsEnabled
    | .running => true
    | .reset | .watch | .doze | .off => false

/-- Thermistor input TH`n` is converted: it is in use under TGRID, and the column has it converted (Tables 2.9, 16.4, R396,
R657). -/
def State.thermistorConverted (s : State) (n : Fin 16) : Bool :=
  decide (n.val < gridCols s.tgrid * gridRows s.tgrid) && match s.pinColumn with
  | .coldStart => s.clock.running
  | .running | .watch => true
  | .reset | .doze | .off => false

/-- Value resistor `i`, in the order of R79, is biased; in DOZE only VLCDSET and VLCDTC (Table 16.4). -/
def State.resistorBiased (s : State) (i : Fin 6) : Bool :=
  match s.pinColumn with
  | .coldStart => s.start.strapped
  | .running | .watch => true
  | .doze => decide (4 ≤ i.val)
  | .reset | .off => false

/-- The measuring current flows into the coded straps and value resistors: during strap sampling only (R31, Table 16.4).
-/
def State.strapsMeasured (s : State) : Bool :=
  s.pinColumn = .coldStart && !s.start.strapped

/-- What a pull does at an input. -/
inductive Pull where
  | up
  | down
  /-- disconnected: the pin draws leakage only -/
  | open
deriving DecidableEq, Repr

/-- The internal pull at an input: in OFF none is connected, and the pull-downs of the panel link (`Level.pullDown`) are the
only ones left (R645, R655). -/
def State.pull (s : State) (p : InputPin) : Pull :=
  if s.mode = .off then .open else if p.pulledUp then .up else .down

/-- What a converter or the crystal amplifier does. -/
inductive Converter where
  | on
  /-- pulses that restore VHOLD (R583) -/
  | pulses
  | off
  | highZ
deriving DecidableEq, Repr

/-- The core buck at LXC: it clocks and powers the logic die (Table 16.4). -/
def State.coreBuck (s : State) : Converter :=
  match s.pinColumn with
  | .reset | .coldStart | .running => .on
  | .watch | .doze => .off
  | .off => .highZ

/-- The crystal amplifier at REFXO; `refsel`: the level of that strap (Tables 2.1, 16.4). -/
def State.crystalAmp (s : State) (refsel : Bool) : Converter :=
  if s.mode ≠ .off ∧ (if s.start.strapped then s.setup.refsel else refsel) = true then .off else s.coreBuck

/-- The hold-up converter at LXH1 and LXH2: it follows the charger, in reset too (R430, R583, Table 16.4). -/
def State.holdUpConverter (s : State) : Converter :=
  match s.pinColumn with
  | .off => .highZ
  | .reset | .coldStart | .running | .watch | .doze =>
    match s.energy.charger with
    | .on => .on
    | .pulse => .pulses
    | .off | .paused | .stopped => .off

/-- The converters and charge pumps of the internal rails at time `t` of the running sequence: they run while one of their
rails is enabled (Tables 9.6, 16.4), in a fast discharge until it is crowbarred (Table 11.6). `cut`: as for
`State.railPin`. -/
def State.railConverters (s : State) (t cut : Nat) : Converter :=
  if s.mode = .off then .highZ
  else if !s.external false && [Rail.vpos, .vneg, .vgh, .vgl].any (fun r => s.railPin false r t cut = .driven) then .on
  else .off

/-- The logic die is powered, and with it the TAP. -/
def State.corePowered (s : State) : Bool := s.coreBuck = .on

/-- TDO carries the bit that the TAP shifts out in Shift-DR and Shift-IR, and is at high impedance otherwise
(Tables 16.3, 16.4, R651). -/
def State.tdo (s : State) (shifting bit : Bool) : Level :=
  if s.corePowered && s.pins.vio && shifting then (if bit then .high else .low) else .highZ

end Sys2Proof.Machine
end

