-- ==== Sys2Proof/Safety.lean ====
section
/-! DEFINITION. What claims speak of: the part of the state that the follow-up of a command leaves alone, the octets of the
store, and the conditions that every step keeps. -/
namespace Sys2Proof.Machine

/-! ## What the follow-up of a command leaves alone

Every command but those that power a die down or up is followed by the same work (`State.finish`): recalls complete,
conditions that changed raise their notices, waiting letters are loaded, rails that R456 or R464 no longer lets wait go
off, and in WATCH a notice for somebody wakes the node. Apart from the rails, that work can touch transmit buffers,
courier slots, the jobs and standings that a completed recall ends, the desk's sources, the renders that are due and the
idle times. `State.steady` is the state with exactly those parts blanked, so that an equation between two steady parts
says that everything else is unchanged. -/

/-- A channel without what loading a letter changes. -/
def Channel.steady (c : Channel) : Channel := { c with bufs := [], loading := [], txSeq := 0 }

/-- A port without its outbound slots. -/
def Courier.steady (p : Courier) : Courier := { p with receipts := [], generals := [] }

/-- The whole-node bookkeeping of letters without the letters, the standings and the outbound queue. -/
def Desks.steady (d : Desks) : Desks :=
  { d with jobs := [], order := [], cycle := [], standing := Vector.replicate 32 Standing.initial, out := [],
           nextOut := 0, recalls := [] }

/-- The notice desk without its sources and the window of R549. -/
def Desk.steady (d : Desk) : Desk :=
  { d with sources := Vector.replicate 64 Source.initial, window := 0, opening := 0, fired := 0 }

/-- The state without everything that the follow-up of a command may change. -/
def State.steady (s : State) : State :=
  { s with
    chanA := s.chanA.steady
    chanB := s.chanB.steady
    portA := s.portA.steady
    portB := s.portB.steady
    desks := s.desks.steady
    desk := s.desk.steady
    energy := { s.energy with shortHeld := false, weighs := [] }
    board := { s.board with releases := [] }
    store := Store.initial
    renders := Vector.replicate 33 Render.initial
    idle := { s.idle with quietMs := 0, watchMs := 0 } }

/-- The sources that the follow-up of a command may raise when no recall completes. -/
def followSources : List (Fin 64) :=
  [srcEnergyShort, srcReceiptBacklog, srcLanesFull, srcStagedLimit, srcAlarm, srcFlagChange, srcSparesLow,
   srcRegionDegraded]

/-- A source without its INHAND bit, which the follow-up clears when the recipient is no subscriber any more (R540). -/
def Source.told (x : Source) : Source := { x with inHand := false }

/-- No recall waits for its completion: the target of each one still has a letter that has started (R297). -/
def State.recallsRest (s : State) : Bool := s.desks.recalls.all fun r => s.hasStarted r.1

/-- The jobs that have not come to their outcome. -/
def State.openJobs (s : State) : List Job := s.desks.jobs.filter (·.outcome.isNone)

/-- A tenant's standing without the bookkeeping of its quota notice and of its refusal-list entries. -/
def Standing.held (x : Standing) : Standing := { x with quotaNoted := false, refusals := 0 }

/-- Every octet of the store reads the same. -/
def Store.SameOctets (s t : Store) : Prop := ∀ a, t.read a = s.read a

/-! ## What a command answers -/

/-- The command answers a next state of which this holds. -/
def Gives (c : Instr) (s : State) (p : State → Prop) : Prop := ∃ t, exec c s = .next t ∧ p t

/-- `t` is `u`, the state with a command's own effect, after the follow-up and nothing else: every steady part is that
of `u` (its rails switched off where R456 or R464 says so, and woken when a notice for somebody ends WATCH); and while
no recall is due, so are the octets of the store, the jobs without an outcome, the standings, the order of the letters
and the sources that the follow-up does not raise. -/
structure Settles (u t : State) : Prop where
  steady : t.steady = u.railsAfterFree.steady ∨ (u.mode = .watch ∧ t.steady = (u.railsAfterFree.wake .active).steady)
  octets : u.recallsRest = true → u.store.SameOctets t.store
  jobs : u.recallsRest = true → t.openJobs = u.openJobs
  standing : u.recallsRest = true → ∀ n : Tenant, (t.desks.standing[n]).held = (u.desks.standing[n]).held
  queue : u.recallsRest = true → t.desks.nextOut = u.desks.nextOut ∧ t.desks.order = u.desks.order
    ∧ t.desks.cycle = u.desks.cycle ∧ t.desks.recalls = u.desks.recalls
  sources : u.recallsRest = true → ∀ i : Fin 64, i ∉ followSources →
    (t.desk.sources[i]).told = (u.desk.sources[i]).told

/-- A cold start has just begun from `s` (Table 14.6, time 0): nothing is sampled, read or checked yet, no letter, round
or strike is left, every flag is released, both standby outputs are asserted, and the fuse array and the boot serial stand
as they were. So do the octets of the store, but for the words of a parcel whose writing the end of the boot cuts
(`State.cutParcel`; R618, log 75); accesses go through the copy of the remap table with more entries (R631). -/
structure ColdStarted (cause : BootCause) (full : Bool) (s t : State) : Prop where
  mode : t.mode = .coldStart
  start : t.start = { cause := cause, fullCheck := full, held := !(t.pins.vio && t.pins.vsys),
                      strapped := false, fused := false, quickChecked := false,
                      inletsOpen := false, announced := false, rotated := false }
  clock : t.clock.src = .start ∧ t.clock.uptime = 0 ∧ t.clock.running = false
  flags : ∀ k, t.flagSinks k = false
  channels : t.chanA = Channel.initial ∧ t.chanB = Channel.initial
  outputs : (∀ c, t.standby c = .high) ∧ t.gddir = .low ∧ ∀ p, t.attn p = .highZ
  ports : t.portA.live = false ∧ t.portB.live = false
  letters : t.desks = Desks.initial
  board : t.board = Board.initial
  charger : t.energy = Energy.initial
  array : t.fuses.array = s.fuses.array
  boot : t.boot = s.boot
  octets : t.store.mem = s.cutParcel.mem
  table : t.store.remap = s.cutParcel.remapChoice ∧ t.store.remapping = []
  queue : t.pending = s.pending

/-- A channel is error-active, out of its settling time, with few errors counted in sending and none in receiving. -/
def State.channelReady (s : State) (c : Chan) : Prop :=
  (s.chan c).st = .errorActive ∧ (s.chan c).settling = false ∧ (s.chan c).tec ≤ 95 ∧ (s.chan c).recErr = 0

/-- A channel that takes frames in and whose error counts a correct frame leaves as they are: ready, error-passive by its TEC
alone, or Silent (R155). -/
def State.channelHears (s : State) (c : Chan) : Prop :=
  s.channelReady c ∨ ((s.chan c).settling = false ∧ ((s.chan c).st = .silent
    ∨ ((s.chan c).st = .errorPassive ∧ 128 ≤ (s.chan c).tec ∧ (s.chan c).tec ≤ 255 ∧ (s.chan c).recErr = 0)))

/-- No count of wear has advanced since it was last written (R627), and no collapse has left its margin to add (R628). -/
def Store.wearStored (s : Store) : Bool := !s.collapsed && s.wear.all fun e => e.2.count ≤ e.2.stored

/-- No count of wear comes to be written within `n` more units (R627). -/
def Store.wearFar (s : Store) (n : Nat) : Bool := s.wear.all fun e => e.2.count + n < e.2.stored + wearStep

/-- The next slot of the journal ring holds no entry that must be kept (R616). -/
def Store.slotOpen (s : Store) : Bool := !(s.live.any fun e => e.slot = s.slotFrom 201 s.journalSlot)

/-- The store's octets are in canonical form and it serves every offset from its own page: nothing remapped, being
remapped or retired, and within `n` more units of wear no count is written and no page comes to be remapped (R627,
R629). -/
def Store.plain (s : Store) (n : Nat) : Bool :=
  Memory.wf s.mem && s.remap.isEmpty && s.remapping.isEmpty && s.retired.isEmpty
    && s.wear.all fun e => e.2.count + n < e.2.stored + wearStep && e.2.count + n < wearThreshold

/-- None of the words that have been found damaged, and that no read has met since, is one of these (R621, R622). -/
def Store.intact (s : Store) (reads : Nat → Bool) : Bool :=
  (s.unread.lost ++ s.unread.fixed).all fun o => !(reads (s.served o))

/-! ## Conditions that every step keeps -/

/-- The store's octets and the fuse array are in canonical form. -/
def State.canonical (s : State) : Bool := Memory.wf s.store.mem && Mem.wf fuseDefault s.fuses.array

/-- No event counter of the desk has passed 255 (R527). -/
def State.countersFit (s : State) : Prop := ∀ i : Fin 64, (s.desk.sources[i]).counter ≤ 255

/-- No tenant holds three strikes (R286, R289). -/
def State.strikesFit (s : State) : Prop := ∀ t : Tenant, (s.desks.standing[t]).strikes ≤ 2

/-- A burned fuse bit (R82). -/
def Fuses.bit (f : Fuses) (a i : Nat) : Bool := (f.byte a).getLsbD i

end Sys2Proof.Machine
end

