-- ==== Sys2Proof/Certificates/Slice0/Obligations.lean ====
section
/-! DEFINITION. The statements about the PL-7240, each citing the rules of spec/ it formalises. -/

open Sys2Proof Sys2Proof.Machine

/-! ## Supply, reset and cold start -/

/-- R465, R468, R596, R603, R606, R650: each event that begins a cold start, from the mode it begins in. No letter,
round or strike of the boot before is left; the fuse array, the boot serial and the octets of the store stand as
they were; the internal reset is held while VIO is absent. With RESET# asserted the return of VSYS, and the restart
after a collapse, lead into reset. That a burn in progress is dropped whole is the model's choice (log 66). -/
def Obligations.ColdStartsBegin : Prop :=
  ∀ s : State,
    (s.mode = .off → s.pins.resetLow = false → Gives .vsysRestored s fun t => t.pins.vsys = true
      ∧ ColdStarted (if s.store.collapsed then .collapse else .powerUp) true s t)
    ∧ (s.mode = .off → s.pins.resetLow = true → Gives .vsysRestored s fun t => t.mode = .inReset
      ∧ t.start.fullCheck = true ∧ t.fuses.array = s.fuses.array ∧ t.store.mem = s.store.mem)
    ∧ (s.mode = .off → s.pins.vsys = true → s.fell = true → s.pins.resetLow = false →
      Gives .collapseRestart s fun t => t.pins = s.pins ∧ ColdStarted .collapse true s t)
    ∧ (s.mode = .off → s.pins.vsys = true → s.fell = true → s.pins.resetLow = true →
      Gives .collapseRestart s fun t => t.mode = .inReset ∧ t.pins = s.pins ∧ t.start.fullCheck = true
        ∧ t.fuses.array = s.fuses.array ∧ t.store.mem = s.store.mem)
    ∧ (s.mode = .inReset → Gives .resetNegated s fun t => t.pins.resetLow = false
      ∧ ColdStarted s.start.cause s.start.fullCheck s t)
    ∧ (s.mode = .doze → Gives .dozeNegated s fun t => t.pins.dozeLow = false ∧ ColdStarted .doze false s t)
    ∧ (s.mode = .doze → Gives .wakeAsserted s fun t => t.pins.wakeLow = true ∧ ColdStarted .doze false s t)

/-- R534, R559, R560, Table 13.1: a cold start out of OFF or reset clears every subscription, counter, pending bit and
INHAND bit; one that ends DOZE keeps the subscription words and every source but ALARM and ENERGY_SHORT. Those two gain
the events of the conditions that it ends: each tile in alarm leaves it, and the energy is short no more. That these
events stand in the latches is the model's reading (log 40). -/
def Obligations.ColdStartAndTheNoticeDesk : Prop :=
  ∀ (s : State) (i : Fin 64) (n : Tenant),
    let alarms := (s.tiles.filter fun x => s.tileAlarmed x.1.val).length
    let kept := fun (t : State) => (t.desk.subs[n]).word = (s.desk.subs[n]).word
      ∧ (i ≠ srcAlarm → i ≠ srcEnergyShort → t.desk.sources[i] = s.desk.sources[i])
      ∧ (s.countersFit →
        (t.desk.sources[srcAlarm]).counter = min 255 ((s.desk.sources[srcAlarm]).counter + alarms)
        ∧ (t.desk.sources[srcEnergyShort]).counter
            = min 255 ((s.desk.sources[srcEnergyShort]).counter + bitOf 0 s.energyShort))
      ∧ (t.desk.sources[srcAlarm]).pending = ((s.desk.sources[srcAlarm]).pending || decide (0 < alarms))
      ∧ (t.desk.sources[srcEnergyShort]).pending = ((s.desk.sources[srcEnergyShort]).pending || s.energyShort)
    (s.mode = .off → s.pins.resetLow = false → Gives .vsysRestored s fun t => t.desk = Desk.initial)
    ∧ (s.mode = .inReset → Gives .resetNegated s fun t => t.desk = Desk.initial)
    ∧ (s.mode = .doze → Gives .dozeNegated s kept)
    ∧ (s.mode = .doze → Gives .wakeAsserted s kept)

/-- R600 to R603, R627, R656: RESET# with every lane free and no copy in progress enters reset at once, in every mode but
OFF, where a charger that runs goes on; otherwise the closing sequence runs first: the charger stops and the flags are
released from the assertion on. At
its end, with no round left to finish, the closing record is in the store and the node is in reset, or in the cold
start that a RESET# negated before begins. While the node shuts down already, RESET# moves nothing but its pin, and a fast
discharge goes on until OFF. That a burn in progress is dropped whole is the model's choice (log 66), and how far the words
of a parcel had come is a free value (log 75). When a channel reads Reset in the closing sequence, at its start or with the
end of the frame that it sends, is the model's reading (log 27), and so is what the charger does in reset (log 58). -/
def Obligations.ResetIsEntered : Prop :=
  ∀ s : State,
    (s.mode ≠ .off → s.mode ≠ .inReset → s.discharging = false → s.board.allFree = true → s.copying = false →
      Gives .resetAsserted s fun t => t.mode = .inReset ∧ t.pins.resetLow = true ∧ t.start.cause = .reset
        ∧ t.start.fullCheck = false ∧ t.fuses.array = s.fuses.array ∧ t.chanA.st = .reset ∧ t.chanB.st = .reset
        ∧ t.portA.live = false ∧ t.portB.live = false ∧ (∀ k, t.flagSinks k = false)
        ∧ (∀ c, t.standby c = .high) ∧ t.gddir = .low ∧ t.hven = .low
        ∧ ((s.energy.charger = .on ∨ s.energy.charger = .paused ∨ s.energy.charger = .pulse) → t.holdUpConverter = .on)
        ∧ ((s.energy.charger = .off ∨ s.energy.charger = .stopped) → t.holdUpConverter = .off)
        ∧ (s.cutParcel.wearStored = true → t.store.mem = s.cutParcel.mem))
    ∧ (s.mode ≠ .off → s.mode ≠ .inReset → s.shutting = false → (s.board.allFree = false ∨ s.copying = true) →
      Gives .resetAsserted s fun t => t.resetClosing = true ∧ t.energy.charger = .stopped ∧ t.energy.weighing = false
        ∧ (∀ k, t.flagSinks k = false)
        ∧ Settles { s with pins := { s.pins with resetLow := true }, resetClosing := true,
                           energy := { s.energy with charger := .stopped, weighing := false },
                           chanA := s.chanA.close, chanB := s.chanB.close } t)
    ∧ (s.mode ≠ .off → s.mode ≠ .inReset → s.shutting = true →
      (s.discharging = true ∨ s.board.allFree = false ∨ s.copying = true) →
      Gives .resetAsserted s (Settles { s with pins := { s.pins with resetLow := true } }))
    ∧ (s.resetClosing = true → s.closing = false → s.discharging = false → s.mustFinish = false →
      (s.pins.resetLow = true → Gives .resetSequenceEnd s fun t => t.mode = .inReset ∧ t.start.cause = .reset
        ∧ t.start.fullCheck = false ∧ t.store.closed = true
        ∧ t.fuses.array = s.fuses.array)
      ∧ (s.pins.resetLow = false → Gives .resetSequenceEnd s fun t => t.mode = .coldStart ∧ t.start.cause = .reset
        ∧ t.start.fullCheck = false ∧ t.store.closed = true
        ∧ t.fuses.array = s.fuses.array))

/-- R459 to R461, R464, R467, R598: a loss of VSYS begins closing time in ACTIVE and QUIET, with the charger stopped, no
weigh-in, and the rails of a board with no round going off; it leads straight to OFF in WATCH and DOZE, and in reset
moves nothing but its pin. Closing time ends in OFF, with the closing record once no round runs and no copy is in
progress, and so does a fast discharge, which leaves the store as it stopped. OFF releases the flags and the outputs, keeps
the pull-downs of the panel link and disconnects every other internal pull (R654, R655).
That a burn in progress is dropped whole is the model's choice (log 66); that the node stays in reset (log 69), and when a
channel reads Reset in closing time (log 27), are its readings. -/
def Obligations.SupplyLossEndsInOff : Prop :=
  ∀ s : State,
    let offState := fun (t : State) => t.mode = .off ∧ t.fuses.array = s.fuses.array ∧ t.boot = s.boot
      ∧ (∀ k, t.flagSinks k = false) ∧ (∀ c, t.standby c = .highZ) ∧ (∀ c, (t.chan c).st = .unpowered)
      ∧ t.board = Board.initial ∧ t.desks = Desks.initial ∧ t.pending = s.pending
      ∧ t.gddir = .pullDown ∧ t.hven = .pullDown ∧ (∀ p n, t.linkPin p n = .pullDown) ∧ (∀ p, t.pull p = .open)
    ((s.mode = .active ∨ s.mode = .quiet) → s.closing = false → s.discharging = false →
      Gives .inputLoss s fun t => t.closing = true ∧ t.pins.vsys = false ∧ t.energy.charger = .stopped
        ∧ t.energy.weighing = false ∧ (s.board.allFree = true → t.railsEnabled = false)
        ∧ Settles { s with pins := { s.pins with vsys := false }, closing := true,
                           energy := { s.energy with charger := .stopped, weighing := false },
                           chanA := s.chanA.close, chanB := s.chanB.close } t)
    ∧ ((s.mode = .watch ∨ s.mode = .doze) → Gives .inputLoss s fun t => offState t
        ∧ t.pins = { s.pins with vsys := false } ∧ t.store.mem = s.store.mem)
    ∧ (s.mode = .inReset → exec .inputLoss s = .next { s with pins := { s.pins with vsys := false } })
    ∧ (s.closing = true → s.discharging = false → s.mustFinish = false → Gives .closingTimeEnd s fun t =>
        offState t ∧ t.pins = s.pins ∧ t.store.closed = true ∧ t.fell = false
          ∧ (s.wavesetWaiting = false → s.store.wearStored = true → s.store.wearFar 10 = true
            → s.store.slotOpen = true → t.store.mem = s.store.mem))
    ∧ (s.discharging = true → Gives .fastDischargeEnd s fun t => offState t ∧ t.pins = s.pins
        ∧ t.store.mem = s.store.mem ∧ t.store.collapsed = s.store.collapsed ∧ t.fell = true)

/-- R349, R466, R467, R618: a hold-up collapse, and HVGOOD negated while HVEN is asserted, write the collapse record
and begin the fast discharge: no part is being copied any more, the charger is stopped, the rails are crowbarred and no
panel frame runs. HVEN is not asserted any more, and the rails count as enabled until the sequence that disables them
has ended: the model's choices (log 71). Where no write is under way no
octet of the store changes, unless a count of wear is about to be written or an earlier collapse has left its margin to
add; how far a write under way comes is a free
value (log 75). The steps of Table 11.6 end at 2.0 ms on every board, with one SDLE pulse at their start and every row
conducting by 0.313 ms. -/
def Obligations.CollapseStopsEverything : Prop :=
  (∀ (s : State), s.discharging = false →
    let stops := fun (t : State) => t.discharging = true ∧ t.store.collapsed = true
      ∧ t.energy.charger = .stopped ∧ t.copying = false ∧ t.fuses = s.fuses ∧ t.mode = s.mode
      ∧ t.board = { s.board with rails := .crowbar, stood := s.board.rails, framing := false, blank := false } ∧ t.hven ≠ .high
      ∧ (s.midWrite = false → s.store.collapsed = false → s.store.wearFar 10 = true → s.store.slotOpen = true →
          s.store.SameOctets t.store)
    (s.awake = true → (s.board.rails ≠ .off ∨ s.copying = true ∨ s.shutting = true) →
      Gives .holdUpCollapse s fun t => stops t ∧ t.pins = s.pins
        ∧ (s.writesBack = false → t.desk = s.desk))
    ∧ (s.setup.hvsrc = true → (s.board.rails = .enabling ∨ s.board.rails = .waitGood ∨ s.board.rails = .on) →
      Gives .hvgoodNegated s fun t => stops t ∧ t.pins = { s.pins with hvgood := false }
        ∧ (t.desk.sources[srcHvgoodLost]).counter = min 255 ((s.desk.sources[srcHvgoodLost]).counter + 1)))
  ∧ ∀ h ≤ 3072, (∀ x ∈ dischargeSteps h, x.1 ≤ 20000)
      ∧ (0, RailStep.sdle) ∈ dischargeSteps h ∧ ∃ n ≤ 3130, (n, RailStep.everyRow) ∈ dischargeSteps h

/-! ## Start-up: straps, fuses, clock, checks -/

/-- R34, R37, R40 to R43, R67, R71 to R74, R81, R83, R93 to R97, R121, R312, R430, R559: strap sampling latches each coded
strap's code when all four counts lie in that code's window, the pin is not above the reference and the code is not reserved,
and none otherwise; one strap without a code makes the node unsorted. A logic strap reads 1 when its pin is driven high, and 0
when it is driven low or open. VFAIL names the value resistors out of range, with one event for each; VHSET or ICHG more than
3 % outside keeps the charger off, and one that closing time has stopped stays stopped. Sampling waits for the internal reset
to be released (R650). When uptime runs already, the boot takes its serial here (R580), and no other octet of the store
changes unless the boot before ended in a collapse, whose margin R628 adds to the counts of wear, or a word of the serial has
been damaged since (`StoreWearsAndRemaps`). No source but those of the resistors, the charger and an unreadable boot serial
has an event of its own; what DOZE has kept in hand stays so until the fuses are read; nothing else changes. The fuse read
takes the lifecycle from the triples by majority. Under BLANK every tenant is enabled with every right and no seal, no key is
usable and no district exists but district 0, which every tenant owns. Otherwise a tenant, a district or a key slot is in
force exactly when its record is written and passes its check (and the key is not revoked); SEALED with EVAL and a failed
record is a fuse fault. RECORD_CHECK is raised for every failed record and is the only source with an event of its own, the
subscriptions of tenants that are not enabled are cleared, and nothing else changes; fuse mode is said in `FuseModeOpens`.
That a fuse fault raises RECORD_CHECK too is the model's choice (log 74). -/
def Obligations.StrapsAndFusesAreRead : Prop :=
  (∀ (s : State) (r : StrapSample), s.mode = .coldStart → s.start.strapped = false → s.start.held = false →
      s.discharging = false → Gives (.strapSamplingEnd r) s fun t =>
        (∀ (i : Fin 13) (c : Fin 16), t.setup.codes[i] = some c ↔
          (∀ n ∈ [r.coded[i].c0, r.coded[i].c1, r.coded[i].c2, r.coded[i].c3],
            tab windowLo c ≤ n.toNat ∧ n.toNat ≤ tab windowHi c) ∧ r.coded[i].overRef = false
            ∧ ¬((i.val = 7 ∨ i.val = 11) ∧ 8 ≤ c.val ∧ c.val ≤ 14))
        ∧ (t.setup.unsorted = true ↔ ∃ i : Fin 13, t.setup.codes[i] = none)
        ∧ (t.setup.hvsrc = true ↔ r.hvsrc = some true) ∧ (t.setup.cpmode = true ↔ r.cpmode = some true)
        ∧ (t.setup.refsel = true ↔ r.refsel = some true) ∧ (t.setup.fuseen = true ↔ r.fuseen = some true)
        ∧ (∀ i : Fin 6, t.setup.vfail.getLsbD i = !(valueInRange i r.values[i]))
        ∧ t.setup.railsBarred = !(valueInRange 3 r.values[3]) ∧ t.setup.stampBarred = !(valueInRange 4 r.values[4])
        ∧ (s.energy.charger = .stopped → t.energy.charger = .stopped)
        ∧ (s.energy.charger ≠ .stopped → t.energy.charger = if t.setup.chargerBarred then .off else .on)
        ∧ (s.recallsRest = true → s.countersFit →
          (t.desk.sources[srcPowerResistor]).counter = min 255 ((s.desk.sources[srcPowerResistor]).counter
            + bitOf 0 t.setup.vfail[0] + bitOf 0 t.setup.vfail[1] + bitOf 0 t.setup.vfail[2])
          ∧ (t.desk.sources[srcPanelResistor]).counter = min 255 ((s.desk.sources[srcPanelResistor]).counter
            + bitOf 0 t.setup.vfail[3] + bitOf 0 t.setup.vfail[4] + bitOf 0 t.setup.vfail[5])
          ∧ (t.desk.sources[srcChargerOff]).counter
              = min 255 ((s.desk.sources[srcChargerOff]).counter + bitOf 0 t.setup.chargerBarred))
        ∧ (t.setup.chargerBarred = true ↔
            (∀ v, r.values[0] = some v → 100 * v < 97 * 22500 ∨ 103 * 80000 < 100 * v)
            ∨ (∀ v, r.values[1] = some v → 100 * v < 97 * 5000 ∨ 103 * 100000 < 100 * v))
        ∧ (s.recallsRest = true → ∀ i : Fin 64, i ∉ followSources → i ≠ srcPowerResistor → i ≠ srcPanelResistor →
            i ≠ srcChargerOff → i ≠ srcUncorrectable → (t.desk.sources[i]).told = (s.desk.sources[i]).told)
        ∧ (s.recallsRest = true → s.start.fused = false → ∀ i : Fin 64,
            (t.desk.sources[i]).inHand = (s.desk.sources[i]).inHand)
        ∧ t.gddir = .high
        ∧ (s.clock.running = true → r.fuseen ≠ some true → s.store.collapsed = false → s.store.intact bootWord = true →
            t.boot = s.store.nextBoot
            ∧ (s.recallsRest = true → s.store.plain 40 = true →
              (∀ i < 4, t.store.read (bootBaseA + i) = t.boot.extractLsb' (8 * i) 8
                ∧ t.store.read (bootBaseB + i) = t.boot.extractLsb' (8 * i) 8)
              ∧ ∀ a, (a < bootBaseA ∨ bootBaseA + 4 ≤ a) → (a < bootBaseB ∨ bootBaseB + 4 ≤ a) →
                  t.store.read a = s.store.read a))
        ∧ ((s.clock.running = false ∨ (r.fuseen = some true ∧ s.store.collapsed = false)) →
          Settles { s with setup := t.setup, start := { s.start with strapped := true },
                           energy := { s.energy with charger := t.energy.charger },
                           desk := { s.desk with sources := t.desk.sources } } t)
        ∧ Settles { s with setup := t.setup, start := { s.start with strapped := true }, boot := t.boot
                           store := t.store, energy := { s.energy with charger := t.energy.charger }
                           desk := { s.desk with sources := t.desk.sources } } t)
  ∧ (∀ s : State, s.mode = .coldStart → s.start.strapped = true → s.start.fused = false →
      Gives .fuseArrayRead s fun t =>
        let two := fun (o i : Nat) => s.fuses.bit o i && s.fuses.bit o (i + 1) || s.fuses.bit o i && s.fuses.bit o (i + 2)
          || s.fuses.bit o (i + 1) && s.fuses.bit o (i + 2)
        t.fuses.array = s.fuses.array ∧ t.fuses.image = s.fuses.image ∧ t.fuses.response = s.fuses.response
        ∧ t.fuses.burning = s.fuses.burning ∧ t.fuses.lastResult = s.fuses.lastResult
        ∧ (t.fuses.life = .sealed ↔ two 0x600 3 = true)
        ∧ (t.fuses.life = .configured ↔ two 0x600 3 = false ∧ two 0x600 0 = true)
        ∧ (t.fuses.life = .blank → t.fuses.fault = false ∧ t.fuses.tfail = 0 ∧ t.fuses.dfail = 0 ∧ t.fuses.kfail = 0
            ∧ (∀ n : Tenant, (t.fuses.tenants[n]).enable = true ∧ (t.fuses.tenants[n]).sealReq = false
                ∧ (t.fuses.tenants[n]).rights = 0xFF)
            ∧ (∀ d : Fin 64, d ≠ 0 → t.district d = none)
            ∧ (∃ d, t.district 0 = some d ∧ d.isShared = false ∧ ∀ n < 32, d.owners.getLsbD n = true)
            ∧ (∀ k : Fin 8, t.fuses.keys[k] = none))
        ∧ (t.fuses.life ≠ .blank →
            (∀ n : Tenant, (t.fuses.tenants[n]).enable = (recWritten s.fuses.byte .tenant n
                && !(recFails s.fuses.byte .tenant n) && (s.fuses.byte (8 * n)).getLsbD 0)
              ∧ t.fuses.tfail.getLsbD n = recFails s.fuses.byte .tenant n)
            ∧ (∀ d : Fin 64, (t.fuses.districts[d]).isSome =
                (recWritten s.fuses.byte .district d && !(recFails s.fuses.byte .district d))
              ∧ t.fuses.dfail.getLsbD d = recFails s.fuses.byte .district d)
            ∧ (∀ k : Fin 8, (t.fuses.keys[k]).isSome = (recWritten s.fuses.byte .key k && !(recFails s.fuses.byte .key k)
                && !(s.fuses.bit 0x611 k)) ∧ t.fuses.kfail.getLsbD k = recFails s.fuses.byte .key k)
            ∧ t.fuses.fault = (decide (t.fuses.life = .sealed) && two 0x601 0
                && (t.fuses.tfail ≠ 0 || t.fuses.dfail ≠ 0 || t.fuses.kfail ≠ 0)))
        ∧ (∀ n : Tenant, t.desk.subs[n] =
            if (t.fuses.tenants[n]).enable then s.desk.subs[n] else Subscription.initial)
        ∧ (s.recallsRest = true → s.countersFit → (t.desk.sources[srcRecordCheck]).counter = min 255
            ((s.desk.sources[srcRecordCheck]).counter + if t.fuses.life = .blank then 0 else
              (failing s.fuses.byte .tenant).length + (failing s.fuses.byte .district).length
                + (failing s.fuses.byte .key).length))
        ∧ (s.recallsRest = true → ∀ i : Fin 64, i ∉ followSources → i ≠ srcRecordCheck →
            (t.desk.sources[i]).told = (s.desk.sources[i]).told)
        ∧ (s.setup.fuseen = false → Settles { s with
            fuses := t.fuses, start := { s.start with fused := true },
            desk := { s.desk with subs := t.desk.subs, sources := t.desk.sources } } t))

/-- R37, R608, R611: with FUSEEN the fuse read opens fuse mode: both channels are Held, the courier ports go live with
VIO, and the node is ACTIVE without a store check. That the ports go live at that moment is the model's reading (log 23).
-/
def Obligations.FuseModeOpens : Prop :=
  ∀ s : State, s.mode = .coldStart → s.start.strapped = true → s.start.fused = false → s.setup.fuseen = true →
    Gives .fuseArrayRead s fun t => t.mode = .active ∧ t.chanA.st = .held ∧ t.chanB.st = .held
      ∧ t.portA.live = s.pins.vio ∧ t.portB.live = s.pins.vio ∧ t.fuses.array = s.fuses.array
      ∧ t.start = { s.start with fused := true, inletsOpen := true } ∧ t.clock = s.clock ∧ t.boot = s.boot
      ∧ t.setup = s.setup ∧ t.board.lanes = s.board.lanes ∧ ∀ c, t.standby c = .high

/-- R565, R571, R576, R580, R581, R609 to R611: at the first switch to the PLL of a boot, and at the lock timeout in its
place, uptime and the first rotation start at zero. With the straps sampled the boot serial becomes one more than the greater
readable copy, 0xFFFFFFFF when that is reached or neither copy can be read, and both copies hold it from then on; no other
octet of the store changes, unless the boot before ended in a collapse, whose margin R628 adds to the counts of wear, or a
word of the serial has been damaged since (`StoreWearsAndRemaps`). Before strap sampling ends the serial is not taken yet, and
in fuse mode it stays. The lock timeout abandons a weigh-in (R571). No source but those of the limp clock and of unreadable
copies has an event of its own. -/
def Obligations.UptimeAndBootSerialBegin : Prop :=
  ∀ s : State, s.clocked = true → s.clock.src = .start → s.clock.waking = false → s.clock.running = false →
    let sound := s.store.collapsed = false ∧ s.store.intact bootWord = true
    let next := fun (t : State) =>
      match s.store.bootCopy bootBaseA, s.store.bootCopy bootBaseB with
      | none, none => t.boot = 0xFFFFFFFF
      | some a, none => t.boot = BitVec.ofNat 32 (min (a + 1) 0xFFFFFFFF)
      | none, some b => t.boot = BitVec.ofNat 32 (min (b + 1) 0xFFFFFFFF)
      | some a, some b => t.boot = BitVec.ofNat 32 (min (max a b + 1) 0xFFFFFFFF)
    let written := fun (t : State) => s.recallsRest = true → s.store.plain 40 = true →
        (∀ i < 4, t.store.read (bootBaseA + i) = t.boot.extractLsb' (8 * i) 8
          ∧ t.store.read (bootBaseB + i) = t.boot.extractLsb' (8 * i) 8)
        ∧ ∀ a, (a < bootBaseA ∨ bootBaseA + 4 ≤ a) → (a < bootBaseB ∨ bootBaseB + 4 ≤ a) →
            t.store.read a = s.store.read a
    let unread := fun (t : State) => s.recallsRest = true → s.countersFit →
      (t.desk.sources[srcUncorrectable]).counter = min 255 ((s.desk.sources[srcUncorrectable]).counter
        + bitOf 0 ((s.store.bootCopy bootBaseA).isNone && (s.store.bootCopy bootBaseB).isNone))
    let quiet := fun (t : State) (limp : Bool) => s.recallsRest = true →
      (∀ i : Fin 64, i ∉ followSources → i ≠ srcUncorrectable → i ≠ srcLimpClock →
        (t.desk.sources[i]).told = (s.desk.sources[i]).told)
      ∧ (s.countersFit → (t.desk.sources[srcLimpClock]).counter
          = min 255 ((s.desk.sources[srcLimpClock]).counter + bitOf 0 limp))
    let on := fun (k : Clock) => { k with src := ClockSrc.pll, onWatchOsc := false, uptime := 0, running := true }
    let limp := fun (k : Clock) => { k with src := ClockSrc.limp, onWatchOsc := true, uptime := 0, running := true }
    let weighless := { s.energy with
      weighing := false, charger := if s.energy.charger = Charger.paused then .on else s.energy.charger }
    (s.start.strapped = true → s.setup.fuseen = false →
      (Gives .coreSwitchToPll s fun t => (sound → next t ∧ written t ∧ unread t) ∧ quiet t false
        ∧ t.store.collapsed = false
        ∧ Settles { s with clock := on s.clock, rotationAt := 0, boot := t.boot, store := t.store,
                           desk := { s.desk with sources := t.desk.sources } } t)
      ∧ Gives .pllLockTimeout s fun t => (sound → next t ∧ written t ∧ unread t) ∧ quiet t true
        ∧ t.store.collapsed = false
        ∧ Settles { s with clock := limp s.clock, rotationAt := 0, boot := t.boot, store := t.store, energy := weighless,
                           desk := { s.desk with sources := t.desk.sources } } t)
    ∧ ((s.start.strapped = false ∨ (s.setup.fuseen = true ∧ s.store.collapsed = false)) →
      Gives .coreSwitchToPll s (Settles { s with clock := on s.clock, rotationAt := 0 })
      ∧ Gives .pllLockTimeout s fun t => quiet t true ∧ Settles { s with
          clock := limp s.clock, rotationAt := 0, energy := weighless, desk := { s.desk with sources := t.desk.sources } } t)
    ∧ (s.start.strapped = true → s.setup.fuseen = true → s.store.collapsed = true →
      (Gives .coreSwitchToPll s fun t => quiet t false ∧ t.store.collapsed = false
        ∧ Settles { s with clock := on s.clock, rotationAt := 0, store := t.store } t)
      ∧ Gives .pllLockTimeout s fun t => quiet t true ∧ t.store.collapsed = false
        ∧ Settles { s with clock := limp s.clock, rotationAt := 0, store := t.store, energy := weighless,
                           desk := { s.desk with sources := t.desk.sources } } t)

/-- R143, R167, R168, R568, R574, R651: what going off-bus and returning do to a channel: every channel that takes part goes
off-bus and gives up what it was sending but keeps its loaded buffers and a waking frame, the others stay; off-bus and in
WATCH a channel returns to integrating, or to matching under listen-and-match until it has matched. The other channel stays
as it is. That a channel off the bus gives up its roll call (log 35), and stands by in closing time (log 27), is the model's
reading. -/
def Obligations.ChannelsLeaveAndReturn : Prop :=
  ∀ (s : State) (c d : Chan),
    ((s.channelOffBus c).chan c).st = (match (s.chan c).st with
      | .reset => .reset | .unused => .unused | .held => .held | .offBus => .offBus | .unpowered => .unpowered
      | _ => if s.closing || s.resetClosing || s.discharging then .reset else .offBus)
    ∧ ((s.chan c).st = .errorActive → ((s.channelOffBus c).chan c).sending = none
        ∧ ((s.channelOffBus c).chan c).roll.windowEnd = none ∧ ((s.channelOffBus c).chan c).roll.delayEnd = none)
    ∧ ((s.channelOffBus c).chan c).bufs = (s.chan c).bufs
    ∧ ((s.channelOffBus c).chan c).heldFrame = (s.chan c).heldFrame
    ∧ (((s.chan c).st = .offBus ∨ (s.chan c).st = .watchListener) → s.mode ≠ .watch →
        ((s.returnChannel c).chan c).st = (if s.setup.code 2 = 15 ∧ (s.chan c).matched = none then .matching
          else .integrating))
    ∧ ((s.chan c).st ≠ .offBus → (s.chan c).st ≠ .watchListener → s.returnChannel c = s)
    ∧ (d ≠ c → (s.channelOffBus c).chan d = s.chan d ∧ (s.returnChannel c).chan d = s.chan d)

/-- R353, R525, R566 to R571, R574, R575: on a REFCLK loss the core runs on the limp clock with uptime on the watch oscillator,
both channels go off-bus, a weigh-in is abandoned and every running round pauses, under one more scan that drives 0b00 on its
rows when a panel frame runs; COLD_START comes then at the latest. On the start clock a loss abandons a weigh-in and
nothing else, and on the limp clock it does nothing. The switch back to the PLL returns the channels and resumes
the paused rounds, with a panel frame at once when the rails are on. Each raises LIMP_CLOCK. That a channel off the bus ends
the wait for COLD_START (log 61), and that a paused lane pauses at once, a panel frame being one command (log 53), are the
model's readings. -/
def Obligations.LimpClockComesAndGoes : Prop :=
  ∀ s : State, s.clocked = true →
    let off := (s.channelOffBus .a).channelOffBus .b
    let on := (s.returnChannel .a).returnChannel .b
    let runs := fun (l : Lane) => l.st = .running ∨ l.st = .tail
    (s.clock.src = .pll → Gives .refclkLoss s fun t => t.clock.src = .limp
      ∧ (∀ i : Fin 64, (t.board.lanes[i]).st = (match (s.board.lanes[i]).st with
          | .running => .paused | .tail => .paused | x => x) ∧ (t.board.lanes[i]).got = (s.board.lanes[i]).got)
      ∧ (s.board.framing = true → t.board.blank = true ∧ (∀ x y, t.linkCode x y = 0)
          ∧ ∀ (i : Fin 64) (y : Nat), runs s.board.lanes[i] → (s.board.lanes[i]).rect.y0 ≤ y →
              y ≤ (s.board.lanes[i]).rect.y1 →
              t.drivenRow y = true)
      ∧ (s.board.framing = false → t.board.blank = s.board.blank)
      ∧ (s.start.announced = false → s.start.quickChecked = true → s.shutting = false → s.desks.recalls = [] →
          (∀ c, (s.chan c).st = .integrating ∨ (s.chan c).st = .errorActive) → t.start.announced = true
          ∧ (t.desk.sources[srcColdStart]).counter = min 255 ((s.desk.sources[srcColdStart]).counter + 1))
      ∧ ((s.start.announced = true ∨ s.start.quickChecked = false) →
        Settles ({ s with clock := { s.clock with src := .limp, onWatchOsc := true, waking := false }
                          chanA := off.chanA, chanB := off.chanB
                          energy := { s.energy with
                            weighing := false
                            charger := if s.energy.charger = Charger.paused then .on else s.energy.charger }
                          board := { s.board with lanes := t.board.lanes, framing := false, blank := t.board.blank,
                                                  driven := t.board.driven, skipped := t.board.skipped } }.notice
                  srcLimpClock 1) t))
    ∧ (s.clock.src = .start → Gives .refclkLoss s (Settles { s with energy := { s.energy with
        weighing := false, charger := if s.energy.charger = Charger.paused then .on else s.energy.charger } }))
    ∧ (s.clock.src = .limp → exec .refclkLoss s = .next s)
    ∧ (s.clock.src = .limp → s.energy.weighs = [] → s.askers = [] → s.pins.vio = true → s.board.rails ≠ .on →
      Gives .coreSwitchToPll s fun t =>
      (∀ i : Fin 64, (t.board.lanes[i]).st = (match (s.board.lanes[i]).st with
          | .paused => if (s.board.lanes[i]).modeFrames ≤ (s.board.lanes[i]).least then .tail else .running
          | x => x) ∧ (t.board.lanes[i]).got = (s.board.lanes[i]).got)
      ∧ Settles ({ s with clock := { s.clock with src := .pll, onWatchOsc := false, waking := false }
                          chanA := on.chanA, chanB := on.chanB
                          board := { s.board with lanes := t.board.lanes } }.notice srcLimpClock 0) t)
    ∧ (s.clock.src = .limp → s.board.rails = .on → (∃ i : Fin 64, (s.board.lanes[i]).st = .paused) →
      Gives .coreSwitchToPll s fun t => t.clock.src = .pll ∧ t.board.frames = s.board.frames + 1
        ∧ t.board.blank = false ∧ ∀ i : Fin 64, (t.board.lanes[i]).st ≠ .paused)

/-- R571, R574, R577, R590, R591, Table 14.5: the core switch that ends a wake brings the channels back to the bus and the
courier ports back with VIO; at the lock timeout the wake ends on the limp clock, with both channels off-bus, no waking
frame kept and a weigh-in abandoned. -/
def Obligations.WakeCompletes : Prop :=
  ∀ s : State, (s.mode = .quiet ∨ s.mode = .active) → s.clocked = true → s.clock.src = .start → s.clock.waking = true →
    let on := (s.returnChannel .a).returnChannel .b
    let off := (s.channelOffBus .a).channelOffBus .b
    Gives .coreSwitchToPll s
      (Settles { s with clock := { s.clock with src := .pll, onWatchOsc := false, waking := false }
                        chanA := if s.pins.vio then on.chanA else s.chanA
                        chanB := if s.pins.vio then on.chanB else s.chanB
                        portA := { s.portA with live := s.pins.vio, rx := .idle }
                        portB := { s.portB with live := s.pins.vio, rx := .idle } })
    ∧ Gives .pllLockTimeout s
      (Settles ({ s with clock := { s.clock with src := .limp, onWatchOsc := true, waking := false }
                         chanA := { off.chanA with heldFrame := none }
                         chanB := { off.chanB with heldFrame := none }
                         energy := { s.energy with
                           weighing := false
                           charger := if s.energy.charger = Charger.paused then .on else s.energy.charger }
                         portA := { s.portA with live := s.pins.vio, rx := .idle }
                         portB := { s.portB with live := s.pins.vio, rx := .idle } }.notice srcLimpClock 1))

/-- R164, R306, R393, R470, R605, R607, R608: the quick check ends with an empty journal; without a full check the
standby outputs of the channels in use are negated here, with a full check at its end. A channel in use then integrates
or matches, an unused one stays unused, one of a barred node is Held; with a channel settling the ports open at the end
of its settling time, else at once. -/
def Obligations.ChecksOpenTheInlets : Prop :=
  ∀ s : State, s.mode = .coldStart → s.shutting = false →
    let st := fun (t : State) (c : Chan) =>
      if t.setup.unsorted || t.setup.fuseen || t.fuses.fault then ChanState.held
      else if s.inUse c = false then .unused
      else if s.pins.vio = false ∨ s.clock.src = .limp then .offBus
      else if s.setup.code 2 = 15 ∧ (s.chan c).matched = none then .matching
      else .integrating
    let opened := fun (t : State) => (∀ c, (t.chan c).st = st t c
        ∧ (t.chan c).settling = !(decide ((t.chan c).st = .held) || decide ((t.chan c).st = .unused))
        ∧ t.standby c = if (t.chan c).settling then .low else .high)
      ∧ t.start.inletsOpen = (if t.chanA.settling || t.chanB.settling then s.start.inletsOpen else true)
      ∧ t.mode = (if t.chanA.settling || t.chanB.settling then .coldStart else .active)
    (s.clock.running = true → s.start.fused = true → s.start.quickChecked = false → s.setup.fuseen = false →
      ∀ found,
      (s.start.fullCheck = false → Gives (.quickCheckEnd found) s fun t => opened t ∧ t.start.quickChecked = true
        ∧ t.setup = s.setup ∧ t.clock = s.clock ∧ (s.desks.recalls = [] → t.store.rounds = [] ∧ t.store.posts = []))
      ∧ (s.start.fullCheck = true → Gives (.quickCheckEnd found) s fun t => t.mode = .coldStart
        ∧ t.start.quickChecked = true ∧ t.start.inletsOpen = s.start.inletsOpen
        ∧ (s.desks.recalls = [] → t.store.rounds = [] ∧ t.store.posts = [])
        ∧ t.setup = s.setup ∧ t.clock = s.clock ∧ t.chanA.st = s.chanA.st ∧ t.chanB.st = s.chanB.st))
    ∧ (s.start.quickChecked = true → s.start.fullCheck = true → s.chanA.st = .reset → s.chanB.st = .reset →
      ∀ found, Gives (.fullCheckEnd found) s fun t => opened t ∧ t.setup = s.setup ∧ t.clock = s.clock)

/-- R165, R461, R608, R650, R651: the settling time of a channel ends; the first end opens both courier ports, live with
VIO, and the cold start is over, unless the node shuts down. A VIO loss takes both channels off the bus and stops both
ports; its return restores them, or releases the internal reset that waits for it. That COLD_START comes with a VIO loss
that takes the last roll call away is the model's reading (log 61). -/
def Obligations.PortsFollowSettlingAndVio : Prop :=
  ∀ s : State,
    let live := fun (p : Courier) (v : Bool) => { p with live := v, rx := .idle }
    let stop := fun (p : Courier) => { p with live := false, rx := .idle, shifting := none, so := [] }
    let off := (s.channelOffBus .a).channelOffBus .b
    let on := (s.returnChannel .a).returnChannel .b
    (∀ c, (s.chan c).settling = true → (s.start.inletsOpen = true ∨ s.shutting = true) →
      Gives (.standbySettleEnd c) s (Settles (s.setChan c { s.chan c with settling := false })))
    ∧ (∀ c, (s.chan c).settling = true → s.start.inletsOpen = false → s.shutting = false →
      Gives (.standbySettleEnd c) s (Settles { s.setChan c { s.chan c with settling := false } with
        portA := live s.portA s.pins.vio, portB := live s.portB s.pins.vio,
        start := { s.start with inletsOpen := true },
        mode := if s.mode = .coldStart then .active else s.mode }))
    ∧ (s.mode ≠ .off → Gives .vioLoss s fun t => (∀ p n, t.shifts p n = none ∧ t.attn p = .highZ)
      ∧ ((s.start.announced = true ∨ s.start.quickChecked = false) → Settles { s with
        pins := { s.pins with vio := false }, chanA := off.chanA, chanB := off.chanB,
        portA := stop s.portA, portB := stop s.portB } t)
      ∧ (s.start.announced = false → s.start.quickChecked = true → s.shutting = false → s.desks.recalls = [] →
          (∀ c, (s.chan c).st = .integrating ∨ (s.chan c).st = .errorActive) → t.start.announced = true
          ∧ (t.desk.sources[srcColdStart]).counter = min 255 ((s.desk.sources[srcColdStart]).counter + 1)))
    ∧ ((s.mode = .active ∨ s.mode = .quiet) → s.start.held = false → s.start.inletsOpen = true →
        s.clock.waking = false → s.clock.src ≠ .limp →
      Gives .vioReturn s (Settles { s with
        pins := { s.pins with vio := true }, chanA := on.chanA, chanB := on.chanB,
        portA := live s.portA true, portB := live s.portB true }))
    ∧ (s.start.held = true → Gives .vioReturn s fun t =>
        t = { s with pins := { s.pins with vio := true }, start := { s.start with held := !s.pins.vsys } })

/-! ## Rails, loops, value resistors, die sensor -/

/-- R345 to R347, Tables 9.5 and 9.6: HVGOOD lets a waiting board enable its rails; in regulation they are on, with
RAILS_RESTORED owed after a timeout; 500 ms after the last lane is FREE they are switched off. Nothing else changes. The
steps of Tables 9.5 and 9.6 end with every rail enabled at 4.0 ms, and with VGL disabled at 5.5 ms. -/
def Obligations.RailsFollowTheSequence : Prop :=
  ∀ s : State,
    (s.board.rails = .waitGood → Gives .hvgoodAsserted s
      (Settles { s with pins := { s.pins with hvgood := true }, board := { s.board with rails := .enabling } }))
    ∧ (s.board.rails = .enabling → Gives .railsInRegulation s fun t =>
      Settles (({ s with board := { s.board with
          rails := .on, goodTimeout := none, restoredOwed := false } } : State).noticeIf
        s.board.restoredOwed srcRailsRestored 0) t)
    ∧ (∀ since, s.board.rails = .on → s.board.allFree = true → s.board.freeSince = some since →
      since + 500 ≤ s.clock.uptime → Gives .railOffTimer s
        (Settles { s with board := { s.board with rails := .disabling, freeSince := none } }))
    ∧ (s.board.rails = .disabling → Gives .railDisableEnd s
        (Settles { s with board := { s.board with rails := .off } }))
    ∧ (∀ h, (4000, RailStep.inRegulation) ∈ enableSteps h ∧ ∀ x ∈ enableSteps h, x.1 ≤ 4000)
    ∧ (5500, RailStep.disable .vgl) ∈ disableSteps ∧ ∀ x ∈ disableSteps, x.1 ≤ 5500

/-- R348, R447, R450, Table 13.1: 50 ms after HVEN without HVGOOD, outside WATCH, the board is switched off and
disabled; the earmarks of jobs with a STAGED lane are dropped, and no POST goes on asking for one. Before then, and with
HVGOOD, nothing happens. -/
def Obligations.HvgoodTimeoutDisablesTheBoard : Prop :=
  ∀ s : State, s.board.rails = .waitGood →
    let staged := fun (b : Board) (j : Job) => (b.lanesOf j.id).any fun l => (b.lanes[l]).st = .staged
    ((s.pins.hvgood = true ∨ s.clock.uptime < s.board.hvenAt + 50) → exec .hvgoodTimeout s = .next s)
    ∧ (s.pins.hvgood = false → s.board.hvenAt + 50 ≤ s.clock.uptime → s.mode ≠ .watch → Gives .hvgoodTimeout s fun t =>
      t.board.rails = .off ∧ t.board.goodTimeout = some s.clock.uptime ∧ t.board.restoredOwed = true
      ∧ t.hven ≠ .high ∧ t.board.lanes = s.board.lanes
      ∧ (s.desks.recalls = [] →
          (t.desk.sources[srcHvgoodTimeout]).counter = min 255 ((s.desk.sources[srcHvgoodTimeout]).counter + 1))
      ∧ (s.desks.recalls = [] → ∀ j ∈ t.openJobs, j.earmark.isSome = true →
          staged t.board j = false ∧ ∃ i ∈ s.openJobs, i.id = j.id ∧ i.earmark = j.earmark)
      ∧ (s.desks.recalls = [] → ∀ j ∈ t.openJobs, j.isPost = true → j.asked.isSome = true → j.earmark.isSome = true)
      ∧ t.setup = s.setup ∧ t.clock = s.clock ∧ t.mode = s.mode)

/-- R450, R453 to R457, R461: a loop of 200 Ω or less changes nothing. An open board loop with the rails enabled,
outside WATCH, disables the board until the next cold start, with BOARD_LOOP; rounds that run go on, and with every lane
FREE, or no round running in closing time, the rails go off at once; without a board the loop is not measured (R49, R50).
An open stamp loop blanks the stamp, with
STAMP_LOOP. The jobs with a STAGED lane lose their earmarks at the reading that finds the loop open, though rounds still run:
the board counts as disabled from then on, which is the model's choice (log 41; R456 names the last FREE lane). Between 180
and 220 Ω a part may read either way (Table 17.13); reading by the nominal limit there is another (log 58). -/
def Obligations.CrackLoops : Prop :=
  ∀ (s : State) (ohms : Nat),
    let on := s.board.rails = .enabling ∨ s.board.rails = .waitGood ∨ s.board.rails = .on
    let rest := s.board.allFree || (s.shutting && !(s.board.lanes.toList.any (·.st.started)))
    (ohms ≤ 200 → exec (.boardLoopCheck ohms) s = .next s ∧ exec (.stampLoopCheck ohms) s = .next s)
    ∧ (s.boardSize = none → exec (.boardLoopCheck ohms) s = .next s)
    ∧ (200 < ohms → on → s.boardSize.isSome = true → s.board.loopOpen = false → s.mode ≠ .watch →
      Gives (.boardLoopCheck ohms) s fun t =>
      t.board.loopOpen = true ∧ t.board.lanes = s.board.lanes
      ∧ t.board.rails = (if rest then .disabling else s.board.rails)
      ∧ (s.desks.recalls = [] →
          (t.desk.sources[srcBoardLoop]).counter = min 255 ((s.desk.sources[srcBoardLoop]).counter + 1))
      ∧ (s.desks.recalls = [] → ∀ j ∈ t.openJobs,
          ((t.board.lanesOf j.id).any fun l => (t.board.lanes[l]).st = .staged) = true → j.earmark = none)
      ∧ t.setup = s.setup ∧ t.clock = s.clock ∧ t.stamp = s.stamp ∧ t.mode = s.mode)
    ∧ (200 < ohms → (s.mode = .active ∨ s.mode = .quiet ∨ s.mode = .coldStart ∨ s.mode = .watch) →
      s.stamp.loopOpen = false → Gives (.stampLoopCheck ohms) s fun t =>
        (∀ p q, t.segment p q = false)
        ∧ Settles (({ s with stamp := { s.stamp with loopOpen := true } } : State).notice srcStampLoop 0) t)

/-- R64 to R69, R73, R79, R430, R583, R681: VHSET or ICHG more than 3 % out of its range stops a charger that runs,
until the next cold start, with POWER_RESISTOR and CHARGER_OFF and its VFAIL bit; an open one is out of range, and in reset
only the charger stops (log 58). A live resistor that drifts changes
nothing but its own output, held at the limits of its range. In DOZE the stamp keeps its field (R524). A charger pulse
of WATCH and DOZE restores VHOLD, 2 % or more below its target, to the target, and changes nothing else; that this part
pulses at 98 %, where Table 17.5 allows 97.5 to 98.5 %, is the model's choice (log 58). -/
def Obligations.LiveResistorsAndTheCharger : Prop :=
  ∀ s : State,
    let far := fun (r : ChargerResistor) (v : Option Nat) => ∀ x, v = some x → match r with
      | .vhset => 100 * x < 97 * 22500 ∨ 103 * 80000 < 100 * x
      | .ichg => 100 * x < 97 * 5000 ∨ 103 * 100000 < 100 * x
    let runs := s.energy.charger = .on ∨ s.energy.charger = .paused ∨ s.energy.charger = .pulse
    (∀ r v, runs → far r v → s.mode = .inReset →
      exec (.chargerResistorFault r v) s = .next { s with energy := { s.energy with charger := .stopped } })
    ∧ (∀ r v, (¬ runs ∨ ¬ far r v) → exec (.chargerResistorFault r v) s = .next s)
    ∧ (∀ r v, runs → far r v → s.mode ≠ .inReset →
      Gives (.chargerResistorFault r v) s fun t =>
        t.energy.charger = .stopped ∧ t.setup.chargerBarred = true
        ∧ t.setup.vfail = s.setup.vfail ||| (match r with | .vhset => 1#6 | .ichg => 2#6)
        ∧ (∀ i : Fin 6, t.setup.live[i] = if i.val = chargerIndex r then v else s.setup.live[i])
        ∧ (s.recallsRest = true →
            (t.desk.sources[srcPowerResistor]).counter = min 255 ((s.desk.sources[srcPowerResistor]).counter + 1)
            ∧ (t.desk.sources[srcChargerOff]).counter = min 255 ((s.desk.sources[srcChargerOff]).counter + 1)
            ∧ (t.desk.sources[srcChargerOff]).detail = 1)
        ∧ (s.stamp.dozing = true → t.stamp.field = s.stamp.field)
        ∧ Settles { s with setup := t.setup, energy := { s.energy with charger := .stopped },
                           stamp := { s.stamp with field := t.stamp.field },
                           desk := { s.desk with sources := t.desk.sources } } t)
    ∧ (∀ r v, s.mode ≠ .off → s.mode ≠ .inReset → s.start.strapped = true → ∃ u x,
        exec (.valueResistorDrift r v) s = .next { s with setup := { s.setup with live := u },
                                                           stamp := { s.stamp with vlcd := x } }
        ∧ (∀ i : Fin 6, u[i] = if i.val = liveIndex r then v else s.setup.live[i])
        ∧ ((r = .vhset ∨ r = .ichg ∨ r = .vcomset) → x = s.stamp.vlcd)
        ∧ 2600 * 80000 ≤ (if r = .vlcdset ∨ r = .vlcdtc then x else 2600 * 80000)
        ∧ (if r = .vlcdset ∨ r = .vlcdtc then x else 0) ≤ 5200 * 80000
        ∧ (∀ a b : Nat, r = .vlcdset → v = some a → 26000 ≤ a → a ≤ 52000 → s.setup.live[5] = some b → b ≤ 100000 →
            x = max (2600 * 80000) (min (5200 * 80000) (8000 * (a : Int) - b * (s.dieTemp - 400)))))
    ∧ (∀ mv, (s.energy.charger ≠ .pulse ∨ 98 * s.vholdTarget < 100 * mv) → exec (.chargerPulse mv) s = .next s)
    ∧ (∀ mv, s.energy.charger = .pulse → 100 * mv ≤ 98 * s.vholdTarget →
        exec (.chargerPulse mv) s = .next { s with energy := { s.energy with vhold := 10 * s.vholdTarget } })

/-- R676: the die sensor above its limit raises DIE_HOT "above" once; 5 °C below the limit it raises "back below" once.
The temperature is in 1/16 °C. -/
def Obligations.DieSensor : Prop :=
  ∀ (s : State) (temp : Int),
    let limit : Int := if Config.variantX then 115 else 100
    s.mode ≠ .off → s.mode ≠ .inReset → s.mode ≠ .doze →
    (s.dieHot = false → 16 * limit < temp → Gives (.dieHot temp) s
      (Settles (({ s with dieHot := true } : State).notice srcDieHot (wholeDegrees temp + 256))))
    ∧ (s.dieHot = true → temp ≤ 16 * (limit - 5) → Gives (.dieHot temp) s
      (Settles (({ s with dieHot := false } : State).notice srcDieHot (wholeDegrees temp))))
    ∧ (s.dieHot = false → temp ≤ 16 * limit → exec (.dieHot temp) s = .next s)
    ∧ (s.dieHot = true → 16 * (limit - 5) < temp → exec (.dieHot temp) s = .next s)

/-! ## Power modes and fuse mode -/

/-- R167, R583, R590, R592, R593: in WATCH, WAKE# and the first accepted frame of a listening channel wake the node to
QUIET on the start clock, uptime still on the watch oscillator, with the charger on again; the frame is kept whole. A frame
that another filter takes, or that is the node's own, does nothing; that one of filter 1 neither wakes the node nor shows a
duplicate is the model's choice (log 61). While the node wakes only the other channel's copy of the waking frame is kept as
well, and any other frame is lost, which is the model's reading (log 28). -/
def Obligations.WatchIsWokenByPinAndFrame : Prop :=
  ∀ s : State,
    let woken := { s.clock with src := ClockSrc.start, waking := true }
    let energy := { s.energy with charger := if s.energy.charger = Charger.pulse then .on else s.energy.charger }
    (s.mode = .watch → Gives .wakeAsserted s fun t =>
      t.mode = .quiet ∧ t.clock = woken ∧ t.pins = { s.pins with wakeLow := true }
      ∧ Settles { s with mode := .quiet, clock := woken, energy := energy, pins := { s.pins with wakeLow := true } } t)
    ∧ (∀ c f, (s.chan c).st = .watchListener → (s.chan c).heldFrame = none → f.ext = true → f.remote = false →
        f.own = false → (f.fd = false ∨ s.classical = false) → (∃ i r, s.filter f.ident = .accept i r) →
      let kept := s.setChan c { s.chan c with heldFrame := some f }
      (s.mode = .watch → Gives (.watchListenerAccept c f) s
        (Settles { kept with mode := .quiet, clock := woken, energy := energy }))
      ∧ (s.mode ≠ .watch → s.clock.waking = true → (s.chan (Chan.other c)).heldFrame = some f →
        Gives (.watchListenerAccept c f) s (Settles kept))
      ∧ (s.mode ≠ .watch → (s.chan (Chan.other c)).heldFrame ≠ some f →
        exec (.watchListenerAccept c f) s = .next s))
    ∧ (∀ c f, (f.ext = false ∨ f.remote = true ∨ f.own = true ∨ ∀ i r, s.filter f.ident ≠ .accept i r) →
      exec (.watchListenerAccept c f) s = .next s)

/-- R62, R77, R121, R482, R485, R506, R507, R509 to R512, R585, R587, R588, R594, R595, R607, Tables 2.13, 12.1 and 12.4:
QUIET after 100 ms without lanes, copies or pending rounds; WATCH after 10 s with nothing waiting, unless WAKE# is asserted,
which begins the 10 s anew; on to DOZE with DOZE# asserted. WATCH stops both ports and keeps the channels in use as
listeners, with their buffers emptied; DOZE stops uptime, unpowers both channels and releases the flags. The registers that
the latches and the store hold stay, and a page that the counts written on the way wear out has its events of SPARES_LOW and
REGION_DEGRADED (R633, R634). Which signals begin the 10 s anew is the model's reading (log 25), and so is that each
flag that sank has its event of FLAG_CHANGE in the latches (log 40).
Every flag is released in OFF, reset and DOZE, while RESET# is asserted or runs its closing sequence, until the straps are
sampled, and when FLAGMAP is not known. Else a flag sinks in its fail state under codes 0 to 7, and out of it under 8 to 15.
Every flag is in its fail state on the limp clock, in the unsorted state, under a fuse fault and until the quick check has
ended (in fuse mode for good, log 16); else the condition that FLAGMAP assigns to it decides, over the tiles that exist,
where an alarm is that of a reading of this boot. The flags follow at once: a REFCLK loss puts all of them into the fail
state, a deadline that passes the flag of its tile, in WATCH too, and each flag that changes has an event of FLAG_CHANGE. -/
def Obligations.QuietWatchDozeAndTheFlags : Prop :=
  (∀ s : State,
      let w := { s with pins := { s.pins with wakeLow := false } }.enterWatch
      let kept := fun (u t : State) (also : List (Fin 64)) => t.desk.subs = u.desk.subs ∧ t.fuses = u.fuses ∧ t.setup = u.setup ∧ t.boot = u.boot
        ∧ t.desks.standing = u.desks.standing ∧ t.stamp.segs = u.stamp.segs ∧ t.stamp.fallback = u.stamp.fallback
        ∧ t.store.readings = u.store.readings ∧ t.store.remap = u.store.remap
        ∧ ∀ i : Fin 64, i ≠ srcFlagChange → i ∉ also → (t.desk.sources[i]).counter = (u.desk.sources[i]).counter
            ∧ (t.desk.sources[i]).pending = (u.desk.sources[i]).pending
      let dozing := fun (u t : State) (also : List (Fin 64)) => t.mode = .doze ∧ t.clock = { u.clock with running := false }
        ∧ t.chanA.st = .unpowered ∧ t.chanB.st = .unpowered ∧ t.stamp.dozing = true ∧ (∀ c, t.standby c = .high)
        ∧ (∀ k, t.flagSinks k = false) ∧ kept u t also ∧ t.store = u.store ∧ t.desks = u.desks ∧ t.desk.flying = []
      let sinking := fun (u : State) => ((List.range 8).filter u.flagSinks).length
      let turned := ((List.range 8).filter fun k => s.flagSinks k ≠ w.flagSinks k).length
      let event := fun (t : State) (n : Nat) => s.countersFit →
        (t.desk.sources[srcFlagChange]).counter = min 255 ((s.desk.sources[srcFlagChange]).counter + n)
      (s.quietOk = true → 100 ≤ s.idle.quietMs → Gives .quietEntry s
        (Settles { s with mode := .quiet, idle := { s.idle with quietMs := 0 } }))
      ∧ (s.quietOk = false ∨ s.idle.quietMs < 100 → exec .quietEntry s = .next s)
      ∧ (w.mode = .watch ∧ w.clock = { s.clock with src := .start, onWatchOsc := true, waking := false }
          ∧ (∀ c, (w.chan c).st = (if s.inUse c then .watchListener else .unused) ∧ (w.chan c).bufs = []
              ∧ (w.chan c).loading = [] ∧ (w.chan c).ctxs = [] ∧ w.standby c = if s.inUse c then .low else .high)
          ∧ (∀ p, (w.port p).live = false ∧ (w.port p).receipts = [] ∧ (w.port p).generals = [])
          ∧ w.desk.flying = [] ∧ w.pins = { s.pins with wakeLow := false }
          ∧ w.energy.charger = (if s.energy.charger = .on then .pulse else s.energy.charger)
          ∧ kept s w [] ∧ (s.store.wearStored = true → s.store.SameOctets w.store))
      ∧ (s.mode = .quiet → s.watchOk = true → 10000 ≤ s.idle.watchMs → s.pins.dozeLow = false →
        Gives (.watchEntry false) s (Settles w))
      ∧ (s.mode = .quiet → s.watchOk = true → 10000 ≤ s.idle.watchMs → s.pins.dozeLow = true →
        Gives (.watchEntry false) s fun t => dozing w t [srcSparesLow, srcRegionDegraded] ∧ t.pins = w.pins
          ∧ event t (turned + sinking w)
          ∧ (s.countersFit → (t.desk.sources[srcSparesLow]).counter = min 255 ((s.desk.sources[srcSparesLow]).counter
              + (([64, 32, 16, 0] : List Nat).filter fun n =>
                  n < s.store.freeSpares.length && w.store.freeSpares.length ≤ n).length)
            ∧ (s.store.retired ≠ w.store.retired → (t.desk.sources[srcRegionDegraded]).counter
                = min 255 ((s.desk.sources[srcRegionDegraded]).counter
                  + (w.store.degraded.filter fun c => !(s.store.degraded.contains c)).length))))
      ∧ exec (.watchEntry true) s = .next { s with pins := { s.pins with wakeLow := true },
                                                   idle := { s.idle with watchMs := 0 } }
      ∧ (s.mode = .watch → Gives (.dozeAsserted false) s fun t => dozing s t []
          ∧ t.pins = { s.pins with dozeLow := true, wakeLow := false } ∧ event t (sinking s))
      ∧ (s.mode ≠ .watch → exec (.dozeAsserted false) s = .next { s with pins := { s.pins with
          dozeLow := true, wakeLow := false } })
      ∧ exec (.dozeAsserted true) s = .next { s with pins := { s.pins with dozeLow := true, wakeLow := true } })
  ∧ ((∀ (s : State) (k : Nat), k < 8 →
      let released := s.mode = .off ∨ s.mode = .inReset ∨ s.mode = .doze ∨ s.pins.resetLow = true ∨ s.resetClosing = true
        ∨ s.start.strapped = false ∨ s.setup.codes[12] = none
      let all := s.setup.unsorted = true ∨ s.fuses.fault = true ∨ s.clock.src = .limp ∨ s.start.quickChecked = false
      let code := s.setup.code 12
      let tile := fun (p : TileDef → Prop) (i : Nat) => ∃ d, tileDef s.layout i = some d ∧ p d
      let alarm := fun (d : TileDef) => tileAlarm s.store.readings d = true
      let stale := fun (d : TileDef) => tileState s.store.readings d = .stale
      let either := tile fun d => alarm d ∨ stale d
      let four := ∃ i < 4, either (4 * k + i)
      let some? := fun (p : TileDef → Prop) => ∃ i < 32, tile p i
      let fault := s.fuses.tfail ≠ 0 ∨ s.fuses.dfail ≠ 0 ∨ s.fuses.kfail ≠ 0 ∨ s.setup.vfail ≠ 0 ∨ s.duplicate = true
        ∨ s.clock.src = .limp
      let bus := ∃ c, s.inUse c = true ∧ ((s.chan c).st = .errorPassive ∨ (s.chan c).st = .busOff ∨ (s.chan c).st = .dead
        ∨ (s.chan c).st = .laidUp ∨ (s.chan c).st = .offBus ∨ (s.chan c).st = .silent)
      let fails := match code % 8 with
        | 0 => either k
        | 1 => tile alarm k
        | 2 => tile stale k
        | 3 => four
        | 4 => if k < 4 then tile alarm k else tile stale (k - 4)
        | 5 => if k = 7 then fault else either k
        | 6 => if k = 7 then fault else four
        | _ => match k with
          | 0 => some? alarm
          | 1 => some? stale
          | 2 => some? fun d => tileState s.store.readings d = .ageUnknown ∨ tileState s.store.readings d = .empty
          | 3 => fault
          | 4 => s.energy.shortHeld = true ∨ (∃ w, s.energy.latest = some w ∧ w.failed = true) ∨ s.setup.chargerBarred = true
          | 5 => s.board.loopOpen = true ∨ s.board.goodTimeout ≠ none ∨ s.setup.railsBarred = true
          | 6 => s.store.degraded ≠ []
          | _ => bus
      (released → s.flagSinks k = false)
      ∧ (¬ released → all → s.flagSinks k = decide (code < 8))
      ∧ (¬ released → ¬ all → (s.flagSinks k = true ↔ (fails ↔ code < 8))))
    ∧ (∀ (rs : Vector (Option Reading) 32) (a b : Tenant),
      let mine := fun (t : Tenant) => ∃ r, rs[t] = some r ∧ r.time.isSome = true
        ∧ (((rdFlags r.body).testBit 0 = true ∧ rdValue r.body < rdAlo r.body)
          ∨ ((rdFlags r.body).testBit 1 = true ∧ rdAhi r.body < rdValue r.body) ∨ (rdFlags r.body).testBit 2 = true)
      let old := fun (t : Tenant) => ∃ r, rs[t] = some r ∧ r.stale = true
      let fresh := fun (t : Tenant) => ∃ r, rs[t] = some r ∧ r.stale = false ∧ r.time.isSome = true
      (tileState rs (.plain a) = .stale ↔ old a) ∧ (tileState rs (.plain a) = .empty ↔ rs[a] = none)
      ∧ (tileState rs (.plain a) = .fresh ↔ fresh a)
      ∧ (tileState rs (.composite a b) = .stale ↔ old a ∨ old b)
      ∧ (tileState rs (.composite a b) = .empty ↔ ¬ old a ∧ ¬ old b ∧ (rs[a] = none ∨ rs[b] = none))
      ∧ (tileState rs (.composite a b) = .fresh ↔ fresh a ∧ fresh b)
      ∧ (tileAlarm rs (.plain a) = true ↔ mine a)
      ∧ (tileAlarm rs (.composite a b) = true ↔ (old a ∨ old b ∨ (fresh a ∧ fresh b)) ∧ (mine a ∨ mine b)))
    ∧ ∀ (s : State), (s.desk.sources[srcFlagChange]).counter ≤ 255 →
      let told := fun (t : State) => (t.desk.sources[srcFlagChange]).counter
        = min 255 ((s.desk.sources[srcFlagChange]).counter
            + ((List.range 8).filter fun k => s.flagSinks k ≠ t.flagSinks k).length)
      Gives .sealCheck s told
      ∧ (s.clocked = true → s.clock.src = .pll → Gives .refclkLoss s fun t => told t ∧ ∀ k < 8,
          t.flagSinks k = (decide (s.setup.code 12 < 8) && !s.flagsReleased))
      ∧ (∀ (n : Tenant) (r : Reading) (k : Nat), s.counts = true → s.mode ≠ .coldStart → s.store.readings[n] = some r →
          r.stale = false → r.time.getD 0 + 1000 * (3 * rdInterval r.body * s.staleMult) ≤ s.clock.uptime →
          tileDef s.layout k = some (.plain n) → k < 8 → s.setup.code 12 % 8 = 2 →
          Gives (.stalenessDeadline n) s fun t => told t
            ∧ t.flagSinks k = (decide (s.setup.code 12 < 8) && !s.flagsReleased)))

/-- R92, R100, R101, Table 3.8: in fuse mode each command leaves its response for the next transaction: its code, a
result, a length and a payload. LOAD keeps an image of 2,080 octets; CHECK answers the first failure of Table 3.9;
READ gives the array with the key slots and their check words as zeros; STATE gives lifecycle, sessions, VQPS,
temperature and the last result; an unknown code, a wrong length or wrong arming octets answer 0x01 and do nothing
more. What the rules do not order there is read as log 23 says. -/
def Obligations.FuseModeAnswers : Prop :=
  ∀ s : State, s.setup.fuseen = true → s.start.fused = true → s.portA.live = true → s.fuses.burning = none →
    let ans := fun (code result : Byte) (p : List Byte) => some (code :: result :: (leBytes p.length 2 ++ p))
    (∀ m, m.length = 2080 → exec (.load m) s = .next { s with fuses := { s.fuses with
        image := some m, response := ans 0x4C 0 [], lastResult := 0 } })
    ∧ (∀ m, m.length ≠ 2080 → exec (.load m) s = .next { s with fuses := { s.fuses with
        response := ans 0x4C 1 [], lastResult := 1 } })
    ∧ (∀ e, ∃ r, exec (.check e) s = .next { s with fuses := { s.fuses with response := ans 0x43 r [], lastResult := r } }
        ∧ (s.fuses.image = none → r = 2)
        ∧ (∀ m x, s.fuses.image = some m → imageFault s.fuses.byte m = some x → r = x)
        ∧ (∀ m, s.fuses.image = some m → imageFault s.fuses.byte m = none →
            r = if e.vqps < 6250 ∨ 6750 < e.vqps then 0x11 else if e.temp < 0 ∨ 70 < e.temp then 0x12 else 0))
    ∧ (∃ p, exec .read s = .next { s with fuses := { s.fuses with response := ans 0x52 0 p, lastResult := 0 } }
        ∧ p.length = 2048 ∧ ∀ i, i < 2048 → octet p i =
          if (0x500 ≤ i ∧ i ≤ 0x5FF) ∨ (0x6D8 ≤ i ∧ i ≤ 0x6E7) then 0 else s.fuses.byte i)
    ∧ (∀ e,
        let p := [BitVec.ofNat 8 (lifeOf s.fuses.byte).code, BitVec.ofNat 8 (sessions s.fuses.byte)] ++ leBytes e.vqps 2
          ++ [BitVec.ofInt 8 e.temp, s.fuses.lastResult]
        exec (.state e) s = .next { s with fuses := { s.fuses with response := ans 0x53 0 p } })
    ∧ (∀ code, exec (.badCommand code) s = .next { s with fuses := { s.fuses with
        response := ans code 1 [], lastResult := 1 } })
    ∧ (∀ a e, a ≠ [0x42, 0x55, 0x52, 0x4E] → exec (.burn a e) s = .next { s with fuses := { s.fuses with
        response := ans 0x42 1 [], lastResult := 1 } })

/-- R102, R103: BURN with the right arming octets repeats the checks and, when they all pass, begins a burn of the next
session bit and of exactly the unburned bits that the image sets, in the order of R102: record bytes and check words in
ascending address, WRITTEN and KEY_REVOKED bits, the TLOCK triple, the EVAL triple, the CONF triple, the SEAL triple. A
failed check is answered and burns nothing. At the end every bit of the list is burned and no other bit changes; stopped
early, exactly the bits before the stop are burned (and the one it stopped on when that took), and BURN_FAILED is
answered. That bits burned already are passed over, and that no response stands during a burn, are read as log 23 says.
-/
def Obligations.BurnFollowsItsOrder : Prop :=
  ∀ s : State,
    let rank := fun (x : Nat × Nat) =>
      if x.1 = 0x600 then (if x.2 < 3 then 5 else 6)
      else if x.1 = 0x601 then (if x.2 < 3 then 4 else 3)
      else if 0x604 ≤ x.1 ∧ x.1 ≤ 0x611 then 2
      else 1
    let place := fun (x : Nat × Nat) => x.2 < 8 ∧ (x.1 ≤ 0x5FF ∨ (x.1 ≤ 0x601 ∧ x.2 < 6) ∨ (0x604 ≤ x.1 ∧ x.1 ≤ 0x611)
      ∨ (0x618 ≤ x.1 ∧ x.1 ≤ 0x6E7))
    (s.setup.fuseen = true → s.start.fused = true → s.portA.live = true → s.fuses.burning = none →
      ∀ e m, s.fuses.image = some m →
        (s.fuses.checkResult e = 0 → ∃ l, exec (.burn [0x42, 0x55, 0x52, 0x4E] e) s = .next { s with
            fuses := { s.fuses with
              burning := some ⟨(0x612 + sessions s.fuses.byte / 8, sessions s.fuses.byte % 8) :: l⟩, response := none } }
          ∧ (∀ x, x ∈ l ↔ place x ∧ (imageByte m x.1).getLsbD x.2 = true ∧ s.fuses.bit x.1 x.2 = false)
          ∧ ∀ (i j : Nat) (x y : Nat × Nat), i < j → l[i]? = some x → l[j]? = some y →
              rank x < rank y ∨ (rank x = rank y ∧ x.1 ≤ y.1))
        ∧ (s.fuses.checkResult e ≠ 0 → exec (.burn [0x42, 0x55, 0x52, 0x4E] e) s = .next { s with
            fuses := { s.fuses with lastResult := s.fuses.checkResult e,
                                    response := some [0x42, s.fuses.checkResult e, 0, 0] } }))
    ∧ (∀ b stop, s.fuses.burning = some b → ∃ array,
        let done := match stop with
          | none => b.bits
          | some (n, took) => b.bits.take n ++ (if took then (b.bits.drop n).take 1 else [])
        let r : Byte := if stop.isSome then 0x13 else 0
        exec (.burnEnd stop) s = .next { s with
          fuses := { s.fuses with array := array, burning := none, lastResult := r,
                                  response := some [0x42, r, 0, 0] } }
        ∧ (Mem.wf fuseDefault s.fuses.array = true → ∀ a i, i < 8 →
            (Mem.read fuseDefault array a).getLsbD i = (s.fuses.bit a i || done.contains (a, i))))

/-! ## The bus: reception -/

/-- R88, R245, R252, R263, R264, Table 6.14: a receipt of a letter whose tenant needs no seal is one more letter on the
outbound queue, for the letter's own tenant and inlet, and nothing else; a refusal is given by RMODE, counts against the
refusal list, and with 64 entries in all or 4 of the tenant becomes a dead letter with REFUSAL_LIST. The tenant is the
one that the letter belongs to: on a bound courier port the bound one, whichever its header names. That a refusal to which
RMODE gives no receipt counts nowhere is the model's choice (log 76). -/
def Obligations.ReceiptsAndRefusals : Prop :=
  ∀ (s : State) (l : Letter) (st : Byte) (d : Nat), s.discharging = false →
    let t := s.owner l
    ((∀ c, l.inlet = .channel c → t = l.tenant)
      ∧ ∀ p, l.inlet = .courier p → t = (match s.bound p with | some b => b | none => l.tenant))
    ∧ (s.mustSeal (s.answerTenant l.inlet l.tenant) = false → (∀ c, l.inlet = .channel c → s.silentForBoot = false) →
      ∀ job list, ∃ o, s.receipt l st d job list = { s with desks := { s.desks with
          out := s.desks.out ++ [o], nextOut := s.desks.nextOut + 1 } }
        ∧ o.id = s.desks.nextOut ∧ o.kind = kReceipt ∧ o.tenant = s.answerTenant l.inlet l.tenant
        ∧ o.stream = idStream l.ident ∧ o.docket = job ∧ o.refusal = list ∧ o.unsent = false
        ∧ (∀ p, l.inlet = .courier p → o.port = some p ∧ o.toA = false ∧ o.toB = false)
        ∧ (∀ c, l.inlet = .channel c → o.port = none
            ∧ (s.busMode = 2 → o.toA = true ∧ o.toB = true) ∧ (s.busMode = 3 → o.toA = (c = .a) ∧ o.toB = (c = .b))))
    ∧ ((l.rmode = 3 ∨ (l.rmode = 1 ∧ st = stDelivered)) → s.refuse l ⟨st, d⟩ = s)
    ∧ ((l.rmode = 0 ∨ l.rmode = 2 ∨ (l.rmode = 1 ∧ st ≠ stDelivered)) →
      (64 ≤ s.desks.refusalTotal ∨ 4 ≤ (s.desks.standing[t]).refusals →
        s.refuse l ⟨st, d⟩ = (s.notice srcRefusalList t.val).deadLetter l.inlet)
      ∧ (s.desks.refusalTotal < 64 → (s.desks.standing[t]).refusals < 4 →
        let x := s.desks.standing[t]
        s.refuse l ⟨st, d⟩ =
          (s.setStanding t { x with refusals := x.refusals + 1 }).receipt l st d none (some t)))

/-- R127, R133 to R135, R144, R146, R253, Tables 4.5 and 4.8: a remote or base frame is counted; an FD frame under a classical
rate is a protocol exception, and the channel integrates, or, while it matches, tries the next rate; two correct frames in a
row end the matching with RATE_MATCHED; a frame that no filter accepts does nothing, a first fragment on route 3 is a dead
letter; a frame the node sent itself is no evidence of a duplicate. That holds of error-active, error-passive and Silent
receivers alike, said where REC is 0. A channel that takes no frames in is left alone. That a route 3 frame without data is
none is the model's choice (log 61). -/
def Obligations.FramesAreSorted : Prop :=
  ∀ (s : State) (c : Chan) (f : Frame),
    let x := s.chan c
    ((x.settling = true ∨ x.st = .busOff ∨ x.st = .dead ∨ x.st = .integrating ∨ x.st = .offBus ∨ x.st = .unused
        ∨ x.st = .held ∨ x.st = .laidUp ∨ x.st = .reset ∨ x.st = .watchListener ∨ x.st = .unpowered) →
        exec (.busFrameReceived c f) s = .next s)
    ∧ (s.channelHears c → f.fd = true → s.classical = true → s.shutting = false → Gives (.busFrameReceived c f) s
        (Settles ((s.setChan c { x with protoExc := bump16 x.protoExc, st := .integrating, exception := true,
                                        sending := none }).notice srcProtocolException (chanBit c))))
    ∧ (x.st = .matching → x.settling = false → f.fd = true → s.classical = true → s.shutting = false →
        Gives (.busFrameReceived c f) s (Settles ((s.setChan c { x with
          protoExc := bump16 x.protoExc, tryRate := ⟨(x.tryRate.val + 3) % 4, Nat.mod_lt _ (by decide)⟩
          trySince := s.clock.uptime, goodFrames := 0 }).notice srcProtocolException (chanBit c))))
    ∧ (x.st = .matching → x.settling = false → f.fd = false → f.remote = true →
        (x.goodFrames = 0 → Gives (.busFrameReceived c f) s
          (Settles (s.setChan c { x with remote := bump16 x.remote, goodFrames := 1 })))
        ∧ (1 ≤ x.goodFrames → Gives (.busFrameReceived c f) s (Settles ((s.setChan c { x with
            remote := bump16 x.remote, st := .integrating, matched := some x.tryRate, goodFrames := 0 }).notice
              srcRateMatched (x.tryRate.val + chanBit c)))))
    ∧ (s.channelHears c → (f.fd = false ∨ s.classical = false) →
        (f.remote = true → Gives (.busFrameReceived c f) s
          (Settles (s.setChan c { x with remote := bump16 x.remote })))
        ∧ (f.remote = false → f.ext = false → Gives (.busFrameReceived c f) s
          (Settles (s.setChan c { x with base := bump16 x.base })))
        ∧ (f.remote = false → f.ext = true →
          (idRoute f.ident = 0 → idNode f.ident ≠ s.own → Gives (.busFrameReceived c f) s (Settles s))
          ∧ (idRoute f.ident = 2 → idNode f.ident ≠ s.own → idKind f.ident ≠ kRollcall →
              Gives (.busFrameReceived c f) s (Settles s))
          ∧ (idRoute f.ident = 2 → idNode f.ident = s.own → f.own = true →
              Gives (.busFrameReceived c f) s (Settles s))
          ∧ (idRoute f.ident = 3 → Gives (.busFrameReceived c f) s
              (Settles (if !f.data.isEmpty && (octet f.data 0).getLsbD 7 then s.deadLetter (.channel c) else s)))))

/-- R172, R173, R175: a frame in the node's own name that it did not send and that is no ROLLCALL, a ROLLCALL in its own
name with another nonce than that of its latest one on the channel, and the second bit error in the data field of its own
ROLLCALL in one window, make a node that is not listen-only silent on both channels until the next cold start, with
DUPLICATE naming the channel; its buffers and roll calls are dropped, and nothing more goes out on the bus; only a frame in
progress while the node shuts down ends first. A ROLLCALL with that nonce changes nothing. That a channel off the bus becomes
Silent only at its return and one that integrates at once is the model's reading (log 20), that a frame in progress ends while
the node shuts down too (log 27), and how a nonce is gathered from frames is its choice (log 61). -/
def Obligations.DuplicateSilencesTheNode : Prop :=
  ∀ (s : State) (c : Chan), s.channelHears c → s.duplicate = false → s.listenOnly = false →
    let found := fun (t : State) => t.duplicate = true ∧ (t.chan c).foundDup = true
      ∧ (∀ d, (s.shutting = false ∨ (s.chan d).sending = none) → (t.chan d).st = (match (s.chan d).st with
            | .matching => .silent | .integrating => .silent | .errorActive => .silent | .errorPassive => .silent | z => z)
          ∧ (t.chan d).roll.delayEnd = none ∧ (t.chan d).roll.windowEnd = none ∧ (t.chan d).sending = none)
      ∧ (∀ d, s.shutting = true → (s.chan d).sending ≠ none → (t.chan d).st = (s.chan d).st
          ∧ (t.chan d).sending = (s.chan d).sending)
      ∧ (s.desks.recalls = [] →
          (∀ d, (s.shutting = false ∨ (s.chan d).sending = none) → (t.chan d).bufs = [] ∧ (t.chan d).loading = [])
          ∧ (t.desk.sources[srcDuplicate]).counter = min 255 ((s.desk.sources[srcDuplicate]).counter + 1)
          ∧ (t.desk.sources[srcDuplicate]).detail = (match c with | .a => 1 | .b => 2)
          ∧ ∀ o ∈ t.desks.out, o.toA = false ∧ o.toB = false)
      ∧ t.setup = s.setup ∧ t.board.lanes = s.board.lanes
    (∀ f, (f.fd = false ∨ s.classical = false) → f.remote = false → f.ext = true → f.own = false → idRoute f.ident = 2 →
      idNode f.ident = s.own → idKind f.ident ≠ kRollcall → Gives (.busFrameReceived c f) s found)
    ∧ (∀ f ctl o, (f.fd = false ∨ s.classical = false) → f.remote = false → f.ext = true → f.own = false →
      idRoute f.ident = 2 → idNode f.ident = s.own → idKind f.ident = kRollcall → f.data = ctl :: o →
      ctl.getLsbD 7 = true → 12 ≤ o.length →
      ((s.chan c).roll.nonce ≠ some (BitVec.ofNat 32 (leNat o 8 4)) → Gives (.busFrameReceived c f) s found)
      ∧ ((s.chan c).roll.nonce = some (BitVec.ofNat 32 (leNat o 8 4)) → Gives (.busFrameReceived c f) s
          (Settles (s.setChan c { s.chan c with rollRx := none }))))
    ∧ (s.channelReady c → (s.chan c).sendsRoll = true → (s.chan c).roll.errors = 1 → s.shutting = false →
      Gives (.busError c (.transmitter true)) s found)

/-- R148, R149, R213, R217 to R225, R267, R687: an accepted fragment. FIRST opens a context, the next in sequence adds its
octets, one out of sequence marks it lost, one without a context is an orphan, and one that finds no buffer is an overrun that
marks the context. A FIRST that finds no context is refused with QUOTA_EXCEEDED, detail 3 (R219); on an open context it
abandons the open letter with MALFORMED, reason 10, or 1 after a loss, and begins anew (R221). After a loss or a refusal the
fragments up to LAST add nothing, and after a loss LAST brings MALFORMED, reason 1 (R222, R224). A FIRST whose number is not 0
opens a context that is marked lost, and a frame that brings no letter octet holds no buffer. Until the header is complete
each frame keeps a buffer of its own class, that of its KIND, whatever class opened the context: one of the 16 of the reserved
class, or one of the 368 shared, 48 of them at most for its tenant; that a reserved frame finds room among the 16 only is the
model's choice (log 61). With the header complete and sound the shelf granules of the whole letter are claimed; LAST makes the
letter complete. Error-active, error-passive and Silent receivers alike, said where REC is 0. -/
def Obligations.FragmentsReassemble : Prop :=
  ∀ (s : State) (c : Chan) (f : Frame) (ctl : Byte) (o : List Byte), s.channelHears c →
    (f.fd = false ∨ s.classical = false) → f.remote = false → f.ext = true → f.data = ctl :: o →
    (idRoute f.ident = 1 ∨ (idRoute f.ident = 0 ∧ idNode f.ident = s.own)) →
    ∀ k, Kind.ofCode (idKind f.ident) = some k →
    let x := s.chan c
    let key := idKey f.ident
    let isRes := reservedKind (idKind f.ident)
    let put := fun (y : Context) => s.setChan c { x with ctxs := x.ctxs.map fun z =>
      if z.key = key ∧ z.complete = false then y else z }
    let gone := s.setChan c { x with ctxs := x.ctxs.filter fun z => !(z.key = key && !z.complete) }
    let refused := fun (v : State) (ident : BitVec 29) (octets : List Byte) (st : Byte) (d : Nat) =>
      if octets.length < 4 then v.deadLetter (.channel c) else v.refuse ⟨.channel c, ident, octets⟩ ⟨st, d⟩
    let fresh : Context :=
      { key := key, ident := f.ident, isReserved := isRes, octets := o, nextSeq := 1, lost := false, dropping := false,
        headerDone := false, claim := 0, buffers := bitOf 0 (!isRes && !o.isEmpty),
        ownBuffers := bitOf 0 (isRes && !o.isEmpty), lastAt := s.clock.uptime, complete := false }
    (x.hasBuffer (idTenant f.ident) isRes = true ↔
        if isRes then (x.ctxs.map (·.ownBuffers)).sum < 16
        else (x.ctxs.map (·.buffers)).sum < 368
          ∧ ((x.ctxs.filter (·.key.tenant = idTenant f.ident)).map (·.buffers)).sum < 48)
    ∧ (x.hasBuffer (idTenant f.ident) isRes = false → Gives (.busFrameReceived c f) s fun t =>
        (t.chan c).overruns = bump16 x.overruns
        ∧ (∀ y ∈ (t.chan c).ctxs, y.key = key → y.complete = false → y.lost = true)
        ∧ (s.recallsRest = true →
            (t.desk.sources[srcOverrun]).counter = min 255 ((s.desk.sources[srcOverrun]).counter + 1)))
    ∧ (x.hasBuffer (idTenant f.ident) isRes = true →
        (ctl.getLsbD 7 = false → x.openCtx key = none → Gives (.busFrameReceived c f) s
          (Settles { s with desks := { s.desks with orphans := bump16 s.desks.orphans } }))
        ∧ (ctl.getLsbD 7 = true → ctl.getLsbD 6 = false → ctl.toNat % 64 = 0 → x.openCtx key = none →
            x.hasContext (idTenant f.ident) isRes = true → o.length < 8 → Gives (.busFrameReceived c f) s
          (Settles (s.setChan c { x with ctxs := x.ctxs ++ [fresh] })))
        ∧ (ctl.getLsbD 7 = true → ctl.getLsbD 6 = false → ctl.toNat % 64 = 0 → x.openCtx key = none →
            x.hasContext (idTenant f.ident) isRes = true → 8 ≤ o.length → headerFault k o = none →
            s.shelfTakes (idTenant f.ident) (granules (hLetterLen o + 4)) = true → Gives (.busFrameReceived c f) s
          (Settles (s.setChan c { x with ctxs := x.ctxs ++ [{ fresh with
            headerDone := true, claim := granules (hLetterLen o + 4), buffers := 0, ownBuffers := 0 }] })))
        ∧ (ctl.getLsbD 7 = true → ctl.getLsbD 6 = false → ctl.toNat % 64 ≠ 0 → x.openCtx key = none →
            x.hasContext (idTenant f.ident) isRes = true → Gives (.busFrameReceived c f) s
          (Settles (s.setChan c { x with ctxs := x.ctxs ++ [{ fresh with lost := true }] })))
        ∧ (ctl.getLsbD 7 = true → x.openCtx key = none → x.hasContext (idTenant f.ident) isRes = false →
            Gives (.busFrameReceived c f) s (Settles (refused s f.ident o stQuota 3)))
        ∧ (∀ y, ctl.getLsbD 7 = true → ctl.getLsbD 6 = false → ctl.toNat % 64 = 0 → x.openCtx key = some y →
            idKind y.ident ≠ kRollcall → o.length < 8 →
            let v := if y.dropping then gone
                     else refused gone y.ident y.octets stMalformed (if y.lost then 1 else 10)
            ((v.chan c).hasContext (idTenant f.ident) isRes = true → Gives (.busFrameReceived c f) s
              (Settles (v.setChan c { v.chan c with ctxs := (v.chan c).ctxs ++ [fresh] })))
            ∧ ((v.chan c).hasContext (idTenant f.ident) isRes = false → Gives (.busFrameReceived c f) s
              (Settles (refused v f.ident o stQuota 3))))
        ∧ (∀ y, ctl.getLsbD 7 = false → x.openCtx key = some y → (y.lost = true ∨ y.dropping = true) →
            idKind y.ident ≠ kRollcall →
            (ctl.getLsbD 6 = false → Gives (.busFrameReceived c f) s
              (Settles (put { y with lastAt := s.clock.uptime })))
            ∧ (ctl.getLsbD 6 = true → Gives (.busFrameReceived c f) s
              (Settles (if y.dropping then gone else refused gone y.ident y.octets stMalformed 1))))
        ∧ (∀ y, ctl.getLsbD 7 = false → ctl.getLsbD 6 = true → x.openCtx key = some y → y.lost = false →
            y.dropping = false → idKind y.ident ≠ kRollcall → ctl.toNat % 64 ≠ y.nextSeq.toNat →
            Gives (.busFrameReceived c f) s (Settles (refused gone y.ident y.octets stMalformed 1)))
        ∧ (∀ y, ctl.getLsbD 7 = false → ctl.getLsbD 6 = false → x.openCtx key = some y → y.lost = false →
            y.dropping = false → ctl.toNat % 64 ≠ y.nextSeq.toNat → Gives (.busFrameReceived c f) s
          (Settles (put { y with lost := true, lastAt := s.clock.uptime })))
        ∧ (∀ y, ctl.getLsbD 7 = false → ctl.getLsbD 6 = false → x.openCtx key = some y → y.lost = false →
            y.dropping = false → y.headerDone = true → ctl.toNat % 64 = y.nextSeq.toNat → Gives (.busFrameReceived c f) s
          (Settles (put { y with octets := y.octets ++ o, nextSeq := y.nextSeq + 1, lastAt := s.clock.uptime })))
        ∧ (∀ y, ctl.getLsbD 7 = false → ctl.getLsbD 6 = false → x.openCtx key = some y → y.lost = false →
            y.dropping = false → y.headerDone = false → ctl.toNat % 64 = y.nextSeq.toNat →
            (y.octets ++ o).length < 8 → Gives (.busFrameReceived c f) s
          (Settles (put { y with octets := y.octets ++ o, nextSeq := y.nextSeq + 1, lastAt := s.clock.uptime,
                                 buffers := y.buffers + bitOf 0 (!isRes && !o.isEmpty),
                                 ownBuffers := y.ownBuffers + bitOf 0 (isRes && !o.isEmpty) })))
        ∧ (∀ y, ctl.getLsbD 7 = false → ctl.getLsbD 6 = true → x.openCtx key = some y → y.lost = false →
            y.dropping = false → y.headerDone = true → ctl.toNat % 64 = y.nextSeq.toNat →
            y.octets.length ≤ hLetterLen (y.octets ++ o) + 4 → Gives (.busFrameReceived c f) s fun t =>
          ∃ z, (t.chan c).ctxs.getLast? = some z ∧ z.complete = true ∧ z.key = key ∧ z.ident = y.ident
            ∧ z.octets = (y.octets ++ o).take (hLetterLen (y.octets ++ o) + 4) ∧ (t.chan c).openCtx key = none))

/-- R223, R225, R226, R229, R496: a context without a fragment for 500 ms is given up; a complete letter leaves its context.
One with a wrong CHECK is refused as MALFORMED with reason 3, one whose check, body and sender are right is admitted; a
ROLLCALL is only dropped. A render takes the last order position as it is granted; where a further letter completes in the
same core cycle as a letter before it, so has the render between them come in that cycle, and it stands ahead of both
(R496). -/
def Obligations.LettersCompleteOrExpire : Prop :=
  ∀ (s : State) (c : Chan),
    let x := s.chan c
    (∀ key y, x.openCtx key = some y → y.lastAt + 500 ≤ s.clock.uptime →
      let t := s.setChan c { x with ctxs := x.ctxs.filter fun z => !(z.key = key && !z.complete) }
      (y.dropping = true → Gives (.contextInactivity c key) s (Settles t))
      ∧ (y.dropping = false → idKind y.ident ≠ kRollcall → 4 ≤ y.octets.length →
          Gives (.contextInactivity c key) s (Settles
            (t.refuse ⟨.channel c, y.ident, y.octets⟩ ⟨stMalformed, if y.lost then 1 else 9⟩)))
      ∧ (y.dropping = false → idKind y.ident ≠ kRollcall → y.octets.length < 4 →
          Gives (.contextInactivity c key) s (Settles (t.deadLetter (.channel c)))))
    ∧ (∀ (j : Job) (tile : Fin 33), j.kind = .render tile → (s.onGrant j).desks.order = s.desks.order ++ [j.id]
        ∧ (s.onGrant j).desks.cycle = s.desks.cycle ++ [j.id])
    ∧ ((s.newCycle false).desks.order = s.desks.order ∧ (s.newCycle false).desks.cycle = [])
    ∧ (∀ os a r, s.desks.order = os ++ [a, r] → s.desks.cycle = [a, r] → a ∉ os → r ∉ os → a ≠ r →
        s.desks.unlettered r = true → s.desks.unlettered a = false → (s.newCycle true).desks.order = os ++ [r, a])
    ∧ (∀ tie y, s.shutting = false → x.ctxs.find? (·.complete) = some y →
      let t := (s.setChan c { x with ctxs := Channel.dropFirst (·.complete) x.ctxs }).newCycle tie
      let n := y.octets.length - 4
      let l : Letter := ⟨.channel c, y.ident, y.octets.take n⟩
      (idKind y.ident = kRollcall → Gives (.letterCompletion c tie) s (Settles t))
      ∧ (idKind y.ident ≠ kRollcall → y.octets.length = hLetterLen y.octets + 4 →
          leNat y.octets n 4 ≠ (crc32 (y.octets.take n)).toNat →
          Gives (.letterCompletion c tie) s (Settles (t.refuse l ⟨stMalformed, 3⟩)))
      ∧ (∀ k, idKind y.ident ≠ kRollcall → y.octets.length = hLetterLen y.octets + 4 →
          leNat y.octets n 4 = (crc32 (y.octets.take n)).toNat → Kind.ofCode (idKind y.ident) = some k →
          s.bodyFault k (idRoute y.ident) l.body = none → s.busMode ≠ 2 →
          Gives (.letterCompletion c tie) s (Settles (t.grantDocket l k y.claim))))

/-- R88, R256 to R258, R260, R261, R271, R286, R298: what admission does: a letter of a tenant that is not enabled, at its
docket limit, suspended or being recalled is refused with its status; any other takes a docket and, where no letter of its
box comes after it, the last place in the order; of two letters of one completion cycle the one of the lower tenant number
comes first. -/
def Obligations.AdmissionGivesDockets : Prop :=
  ∀ (s : State) (l : Letter) (k : Kind) (claim : Nat) (c : Chan), l.inlet = .channel c →
    let t := l.tenant
    let cfg := s.fuses.tenants[t]
    let limit := if k.express then cfg.quota else cfg.quota - 2
    let u := s.grantDocket l k claim
    let n := s.desks.nextJob
    (cfg.enable = false → u = (s.notice srcDisabledSender t.val).refuse l ⟨stNotPermitted, 0⟩)
    ∧ (cfg.enable = true → limit ≤ s.dockets t → u = s.refuse l ⟨stQuota, 1⟩)
    ∧ (cfg.enable = true → s.dockets t < limit → (s.desks.standing[t]).fault = .suspended →
        u = s.refuse l ⟨stSuspended, 0⟩)
    ∧ (cfg.enable = true → s.dockets t < limit → (s.desks.standing[t]).fault = .recalling →
        u = s.refuse l ⟨stRecalled, 0⟩)
    ∧ (cfg.enable = true → s.dockets t < limit →
        ((s.desks.standing[t]).fault = .healthy ∨ (s.desks.standing[t]).fault = .cautioned) →
        (∃ j ∈ u.desks.jobs, j.id = n ∧ j.letter = some l ∧ j.st = .sealWait ∧ j.claim = claim ∧ j.outcome = none
          ∧ (∀ i ∈ s.desks.jobs, i ∈ u.desks.jobs) ∧ (s.desks.cycle = [] → u.desks.jobs = s.desks.jobs ++ [j]))
        ∧ u.desks.nextJob = n + 1 ∧ u.desks.cycle = s.desks.cycle ++ [n]
        ∧ u.store = s.store ∧ u.desks.out = s.desks.out
        ∧ (s.desks.overtaken l = [] →
            (s.desks.cycle = [] → u.desks.order = s.desks.order ++ [n])
            ∧ ∀ js x os m, s.desks.cycle = [x.id] → s.desks.jobs = js ++ [x] → (∀ y ∈ js, y.id ≠ x.id) →
                x.letter = some m → s.desks.order = os ++ [x.id] → x.id ∉ os →
                (l.tenant.val < m.tenant.val → u.desks.order = os ++ [n, x.id])
                ∧ (m.tenant.val < l.tenant.val → u.desks.order = os ++ [x.id, n])))

/-! ## The bus: errors, recovery, roll call, transmission -/

/-- R131, R132, R155, R156: while both counts stay below 256 an error in receiving adds 1 or 8 to REC and one in sending
8 to TEC; at 96 of either, and at the entry to error-passive at 128, the CHANNEL source of that channel fires; the
frame being sent is given up. A transmitter delay within 1,275 ns, and an error the standard does not count, change
no count. A channel that cannot transmit counts nothing. The steps of the counts stand in ISO 11898-1 and are
presumed (log 6). -/
def Obligations.ErrorCountsAndStates : Prop :=
  ∀ (s : State) (c : Chan),
    let x := s.chan c
    (∀ (tec' rec' : Nat) (e : BusError), x.st = .errorActive → x.tec ≤ 127 → x.recErr ≤ 127 → s.shutting = false →
      (match e with
        | .receiver => tec' = x.tec ∧ rec' = x.recErr + 1
        | .receiverDominant => tec' = x.tec ∧ rec' = x.recErr + 8
        | .transmitter b => (b && x.sendsRoll) = false ∧ tec' = x.tec + 8 ∧ rec' = x.recErr
        | .transmitterDelay ns => 1275 < ns ∧ s.tdcOn c = true ∧ tec' = x.tec + 8 ∧ rec' = x.recErr
        | .uncounted => tec' = x.tec ∧ rec' = x.recErr) →
      Gives (.busError c e) s fun t =>
        (t.chan c).tec = tec' ∧ (t.chan c).recErr = rec'
        ∧ (t.chan c).st = (if 128 ≤ tec' ∨ 128 ≤ rec' then .errorPassive else .errorActive)
        ∧ (tec' ≠ x.tec ∨ e = .uncounted → (t.chan c).sending = none)
        ∧ (s.recallsRest = true → s.countersFit → (t.desk.sources[srcChannel c]).counter = min 255
            ((s.desk.sources[srcChannel c]).counter
              + (if (x.tec < 96 ∧ 96 ≤ tec') ∨ (x.recErr < 96 ∧ 96 ≤ rec') then 1 else 0)
              + (if 128 ≤ tec' ∨ 128 ≤ rec' then 1 else 0)))
        ∧ Settles { s.setChan c { x with tec := tec', recErr := rec', st := (t.chan c).st,
                                         sending := (t.chan c).sending, returning := (t.chan c).returning } with
            desk := { s.desk with sources := t.desk.sources } } t)
    ∧ (∀ ns, x.st = .errorActive → (ns ≤ 1275 ∨ s.tdcOn c = false) →
      exec (.busError c (.transmitterDelay ns)) s = .next s)
    ∧ (∀ e, (x.st = .silent ∨ x.st = .integrating ∨ x.st = .busOff ∨ x.st = .dead ∨ x.st = .laidUp ∨ x.st = .offBus
        ∨ x.st = .watchListener) → exec (.busError c e) s = .next s)

/-- R155, R158 to R163, R690: TEC above 255 is bus-off, with the buffers kept; CRX stuck dominant is dead, with the
buffers freed, and takes no letter until it can transmit again; the third such entry within 60 s of uptime lays the
channel up for 15 s times the STALE multiplier, and the earlier entries count no more. This holds in every mode but
WATCH, which the notice of R156 can end. The step of 8 that leads to bus-off stands in ISO 11898-1 and is presumed
(log 6). That a channel off the bus does not listen, so that a dominant level does not make it dead, is the model's choice
(log 61). -/
def Obligations.BusOffDeadAndLayUp : Prop :=
  ∀ (s : State) (c : Chan),
    let x := s.chan c
    let recent := x.entries.filter fun e => s.clock.uptime ≤ e + 60000
    let down := fun (t : State) (st : ChanState) =>
      (t.chan c).st = (if recent.length < 2 then st else .laidUp)
      ∧ (t.chan c).busOffs = bump16 x.busOffs ∧ (t.chan c).sending = none
      ∧ (recent.length < 2 → (t.chan c).entries = recent ++ [s.clock.uptime] ∧ (t.chan c).layUps = x.layUps)
      ∧ (2 ≤ recent.length → (t.chan c).entries = [] ∧ (t.chan c).layUps = bump16 x.layUps
          ∧ (t.chan c).layUpEnd = some (s.clock.uptime + 15000 * s.staleMult)
          ∧ (t.chan c).bufs = [] ∧ (t.chan c).loading = [])
      ∧ (∀ d, d ≠ c → (t.chan d).steady = (s.chan d).steady) ∧ t.clock = s.clock ∧ t.board.lanes = s.board.lanes
      ∧ t.mode = s.mode ∧ t.setup = s.setup ∧ t.stamp = s.stamp
    (x.st = .errorPassive → 248 ≤ x.tec → x.recErr ≤ 127 → s.shutting = false → s.mode ≠ .watch →
      Gives (.busError c (.transmitter false)) s fun t => down t .busOff ∧ (t.chan c).tec = x.tec + 8
        ∧ (recent.length < 2 → ∀ b ∈ x.bufs, b ∈ (t.chan c).bufs))
    ∧ ((x.st = .errorActive ∨ x.st = .errorPassive ∨ x.st = .silent ∨ x.st = .matching ∨ x.st = .integrating
        ∨ x.st = .busOff) → x.settling = false → s.shutting = false → s.mode ≠ .watch →
      Gives (.stuckDominant c) s fun t => down t .dead
      ∧ (t.chan c).bufs = [] ∧ (t.chan c).loading = [] ∧ (t.chan c).shut = true)
    ∧ ((x.st = .dead ∨ x.st = .laidUp ∨ x.st = .offBus ∨ x.st = .unused ∨ x.st = .held ∨ x.st = .reset) →
      exec (.stuckDominant c) s = .next s)

/-- R156, R157, R159 to R161, R165, R168 to R170, R592, R688: the ways back: bus-off recovery and integration end error-
active with both counts zero and a roll call of the given nonce, whose delay is ten microseconds times its low ten
bits, and with the notice of the return when it is owed; a listen-only or duplicate node becomes Silent and sends no
roll call. A waking frame that was kept is taken in. Dead and lay-up end in integrating, or in dead while CRX is
still dominant. The zero counts are the model's reading (log 36), and so is that a channel back from a protocol
exception begins no roll call (log 35); the points of log 61 are its choice. -/
def Obligations.ChannelsComeBack : Prop :=
  ∀ (s : State) (c : Chan) (nonce : BitVec 32), s.mode ≠ .watch →
    let x := s.chan c
    let back := { x with tec := 0, recErr := 0, exception := false, returning := false }
    let rolling := { x.roll with nonce := some nonce, delayEnd := some (100 * s.clock.uptime + nonce.toNat % 1024),
                                 letter := none, windowEnd := none, errors := 0 }
    let active := s.setChan c { back with st := .errorActive, shut := false, roll := rolling }
    let home := if s.listenOnly || s.duplicate then s.setChan c { back with st := .silent }
                else if x.returning then active.notice (srcChannel c) 6 else active
    let st := fun (b : Bool) => if b then ChanState.matching else .integrating
    let unmatched := decide (s.setup.code 2 = 15) && x.matched.isNone
    let joined := fun (y : Channel) (settle : Bool) => s.setChan c { y with
      st := st unmatched, settling := settle || y.settling, tryRate := if unmatched then 3 else y.tryRate,
      trySince := s.clock.uptime, goodFrames := 0, exception := false }
    (x.st = .busOff → Gives (.busOffRecoveryEnd c nonce) s (Settles home))
    ∧ (x.st = .integrating → x.settling = false → x.exception = false → x.heldFrame = none → s.start.announced = true →
      Gives (.integrationEnd c nonce) s (Settles home))
    ∧ (∀ f, x.st = .integrating → x.settling = false → x.exception = false → x.heldFrame = some f →
        s.start.announced = true → Gives (.integrationEnd c nonce) s
      (Settles ((home.setChan c { home.chan c with heldFrame := none }).takeFrame c f)))
    ∧ (x.st = .integrating → x.settling = false → x.exception = true → s.listenOnly = false → s.duplicate = false →
        x.tec ≤ 127 → x.recErr ≤ 127 →
      Gives (.integrationEnd c nonce) s (Settles (s.setChan c { x with st := .errorActive, exception := false })))
    ∧ (x.st = .dead → Gives (.deadRecovery c) s (Settles (joined x false)))
    ∧ (∀ due, x.st = .laidUp → x.layUpEnd = some due → due ≤ s.clock.uptime →
      Gives (.layUpEnd c false) s (Settles (joined { x with layUpEnd := none } true)))
    ∧ (∀ due, x.st = .laidUp → x.layUpEnd = some due → due ≤ s.clock.uptime →
      Gives (.layUpEnd c true) s fun t => (t.chan c).busOffs = bump16 x.busOffs
        ∧ ((t.chan c).st = .dead ∨ (t.chan c).st = .laidUp))

/-- R133 to R135, R171: under listen-and-match a protocol error, and 100 ms at one rate, move the channel to the next
rate; the second correct frame in a row, of whatever format, matches the rate for the rest of the boot, with
RATE_MATCHED, and the channel integrates. A roll-call window ends 40 ms after its ROLLCALL; with every roll call of the
boot over COLD_START is raised, once. That a matched channel integrates, with both counts zero, is the model's reading
(log 36). -/
def Obligations.MatchingAndRollCallEnd : Prop :=
  ∀ (s : State) (c : Chan),
    let x := s.chan c
    let next := s.setChan c { x with tryRate := x.tryRate + 3, trySince := s.clock.uptime, goodFrames := 0 }
    (∀ e, x.st = .matching → x.settling = false → Gives (.busError c e) s (Settles next))
    ∧ (x.st = .matching → x.settling = false → x.trySince + 100 ≤ s.clock.uptime →
        Gives (.rateMatchTimeout c) s (Settles next))
    ∧ (∀ f, x.st = .matching → x.settling = false → x.goodFrames = 1 → f.fd = false → f.remote = true →
        Gives (.busFrameReceived c f) s (Settles ((s.setChan c { x with
          remote := bump16 x.remote, st := .integrating, matched := some x.tryRate, goodFrames := 0 }).notice
          srcRateMatched (x.tryRate.val + chanBit c))))
    ∧ (∀ f, x.st = .matching → x.settling = false → x.goodFrames = 0 → f.fd = false → f.remote = true →
        Gives (.busFrameReceived c f) s (Settles (s.setChan c { x with
          remote := bump16 x.remote, goodFrames := 1 })))
    ∧ (∀ f, x.st = .matching → x.settling = false → f.fd = false →
        (f.remote = true ∨ f.ext = false ∨ f.own = true ∨ idRoute f.ident ≠ 2 ∨ idNode f.ident ≠ s.own) →
        (x.goodFrames = 0 → Gives (.busFrameReceived c f) s fun t =>
          (t.chan c).st = .matching ∧ (t.chan c).goodFrames = 1 ∧ (t.chan c).tryRate = x.tryRate)
        ∧ (x.goodFrames = 1 → Gives (.busFrameReceived c f) s fun t =>
          (t.chan c).st = .integrating ∧ (t.chan c).matched = some x.tryRate ∧ (t.chan c).goodFrames = 0
          ∧ (s.recallsRest = true → (t.desk.sources[srcRateMatched]).counter
              = min 255 ((s.desk.sources[srcRateMatched]).counter + 1))))
    ∧ (∀ w, x.roll.windowEnd = some w → w ≤ s.clock.uptime → s.start.announced = true →
        Gives (.rollcallWindowEnd c) s (Settles (s.setChan c { x with
          roll := { x.roll with windowEnd := none, errors := 0, rolled := true } })))
    ∧ (∀ w, x.roll.windowEnd = some w → w ≤ s.clock.uptime → s.start.announced = false → s.start.quickChecked = true →
        s.busMode = 0 → c = .a → s.desks.tornDue = [] →
        Gives (.rollcallWindowEnd c) s (Settles ({ s.setChan c { x with
            roll := { x.roll with windowEnd := none, errors := 0, rolled := true } } with
          start := { s.start with announced := true } }.notice srcColdStart (causeCode s.start.cause))))

/-- R116, R150 to R154, R169 to R171, R530: at the end of its delay a channel loads its ROLLCALL, in plain, under the
identifier of R169. Whenever it may start a frame it offers, of the buffers it may send, the one with the lowest
identifier, the oldest of equals; a lost arbitration ends the sending; a frame sent frees its buffer, lowers TEC by
1 and, with the last frame of its ROLLCALL, opens the 40 ms. (What the end of a NOTICE brings is said with the
notices.) The TEC step is the family's (log 6), the unit of the delay the model's reading (log 35). -/
def Obligations.FramesGoOut : Prop :=
  ∀ (s : State) (c : Chan), s.shutting = false →
    let x := s.chan c
    (∀ d nonce, x.roll.delayEnd = some d → x.roll.nonce = some nonce → d < 100 * (s.clock.uptime + 1) →
        x.st = .errorActive → x.bufs = [] → x.loading = [] → s.classical = false →
      Gives (.rollcallDelayEnd c) s fun t =>
        (t.chan c).roll = { x.roll with delayEnd := none, letter := some s.desks.nextOut }
        ∧ (∃ b, (t.chan c).bufs.head? = some b ∧ b.ident = mkIdent 7 7 2 s.own 0 kRollcall 0 ∧ b.isLast = true
            ∧ b.data.take 1 = [0xC0] ∧ (b.data.drop 1).take 12 = [1, 0, 0, 0, 8, 0, 0, 0] ++ leBytes nonce.toNat 4)
        ∧ Settles { s.setChan c { x with roll := (t.chan c).roll } with
            desks := { s.desks with nextOut := s.desks.nextOut + 1 } } t)
    ∧ (∀ b, x.st = .errorActive → x.sending = none → b ∈ x.sendable →
        (∀ d ∈ x.sendable, b.ident.toNat < d.ident.toNat ∨ (b.ident = d.ident ∧ b.seq ≤ d.seq)) →
        Gives (.frameStart c) s (Settles (s.setChan c { x with sending := some b.seq })))
    ∧ (x.sending.isSome = true → Gives (.arbitrationLost c) s (Settles (s.setChan c { x with sending := none })))
    ∧ (∀ b, x.st = .errorActive → x.tec ≤ 95 → x.recErr ≤ 127 →
        x.bufs.find? (fun b => some b.seq = x.sending) = some b → b.seq < x.txSeq → Gives (.txFrameEnd c) s fun t =>
          (∀ d ∈ (t.chan c).bufs, d.seq ≠ b.seq) ∧ (∀ d ∈ x.bufs, d.seq ≠ b.seq → d ∈ (t.chan c).bufs)
          ∧ (t.chan c).tec = x.tec - 1 ∧ (t.chan c).sending = none ∧ (t.chan c).st = .errorActive
          ∧ (b.isLast = true → idKind b.ident ≠ kNotice → x.roll.letter = some b.letter →
              (t.chan c).roll.windowEnd = some (s.clock.uptime + 40) ∧ (t.chan c).roll.letter = none)
          ∧ (b.isLast = false ∨ (idKind b.ident ≠ kNotice ∧ x.roll.letter ≠ some b.letter) →
              Settles (s.setChan c { x with tec := x.tec - 1, sending := none }) t))

/-! ## The courier ports -/

/-- R181, R183, R184, R189, R193, R196 to R198, R202, R206, R267, R691, R608: at CS# fall a live port takes the oldest
receipt, else the oldest other letter, into the shifter, and in fuse mode the response; SO shifts its octets and
then 0x00, and is at high impedance while CS# is negated or the port dead, as ATTN# is on a dead port; ATTN# is
asserted while a letter waits, and negated in closing time. A dead port takes nothing. SYNC 0xA5 begins an envelope,
0x00 and 0xFF a read, any other is counted with COURIER_FAULT 4. LENGTH claims shelf granules for the tenant bound
to the port, or is a shelf refusal with SHELF_FULL and COURIER_FAULT 5. That a LENGTH above the largest letter is a
shelf refusal too is the model's reading (log 47), and that in closing time a fall of CS# loads nothing is another
(log 45). -/
def Obligations.CourierTransactionBegins : Prop :=
  ∀ (s : State) (p : Port),
    let x := s.port p
    let row := fun (n : Nat) => n + (match p with | .a => 0 | .b => 256)
    (x.csLow = false → x.live = true → s.shutting = false → s.setup.fuseen = false → ∃ o : Option OutLetter,
      (x.receipts ≠ [] → o = x.receipts.head?) ∧ (x.receipts = [] → o = x.generals.head?)
      ∧ Gives (.csFall p) s fun t =>
          let so := match o with
            | some l => s.envelope l
            | none => []
          Settles (s.setPort p { x with csLow := true, rx := .fallen, taken := 0, shifting := o.map (·.id), so := so }) t
          ∧ (∀ i, t.shifts p i = if i < so.length then so[i]? else some 0))
    ∧ (x.live = false → s.attn p = .highZ ∧ ∀ i, s.shifts p i = none)
    ∧ (x.live = true → (x.csLow = false → ∀ i, s.shifts p i = none)
        ∧ (s.shutting = true → s.attn p = .high)
        ∧ (s.shutting = false → s.setup.fuseen = false → x.shifting = none →
            s.attn p = if x.receipts = [] ∧ x.generals = [] then .high else .low))
    ∧ (x.csLow = false → x.live = true → s.shutting = false → s.setup.fuseen = true → p = .a →
      Gives (.csFall .a) s (Settles { s with
        portA := { x with csLow := true, rx := .ignoring, taken := 0, shifting := none, so := s.fuses.response.getD [] }
        fuses := { s.fuses with response := none } }))
    ∧ (x.csLow = false → x.live = true → s.shutting = false → s.setup.fuseen = true → p = .b →
      Gives (.csFall .b) s (Settles { s with
        portB := { x with csLow := true, rx := .ignoring, taken := 0, shifting := none, so := [] } }))
    ∧ (x.csLow = false → (x.live = false ∨ s.shutting = true) → exec (.csFall p) s = .next (s.setPort p { x with
        csLow := true, rx := .idle, taken := 0, shifting := none, so := [] }))
    ∧ (x.rx = .fallen → Gives (.courierSync p 0xA5) s (Settles (s.setPort p { x with rx := .synced, taken := 1 })))
    ∧ (∀ b, x.rx = .fallen → (b = 0x00 ∨ b = 0xFF) →
      Gives (.courierSync p b) s (Settles (s.setPort p { x with rx := .ignoring, taken := 1 })))
    ∧ (∀ b, x.rx = .fallen → b ≠ 0xA5 → b ≠ 0x00 → b ≠ 0xFF → Gives (.courierSync p b) s
      (Settles ((s.setPort p { x with rx := .ignoring, taken := 1, badSync := bump16 x.badSync }).notice srcCourierFault
        (row 4))))
    ∧ (∀ hdr t, x.rx = .synced → s.portHeld p = false → s.bound p = some t →
      let n := (leNat hdr.toList 7 4 + 63) / 64
      (s.shelfTakes t n = true → Gives (.courierLength p hdr) s
        (Settles (s.setPort p { x with rx := .lengthKnown hdr n false, taken := 12 })))
      ∧ (s.shelfTakes t n = false → Gives (.courierLength p hdr) s
        (Settles (((s.setPort p { x with
            rx := .lengthKnown hdr 0 true, taken := 12, shelfRefusals := bump16 x.shelfRefusals }).notice
          srcShelfFull t.val).notice srcCourierFault (row 5)))))
    ∧ (∀ hdr, x.rx = .synced → s.portHeld p = true → Gives (.courierLength p hdr) s
        (Settles (s.setPort p { x with rx := .lengthKnown hdr 0 false, taken := 12 })))

/-- R183, R190 to R194, R200, R201, R205, R461: at CS# rise an envelope cut short is counted as torn, one whose CRC, top
octets, identifier or length is wrong as damaged, closing time or not, which is the model's reading of closing time (log
45). A sound one is judged, but not in closing time: refused for the shelf when it had no granules, from its first four
octets on, else counted, and admitted when route, header, length and body are right. A letter clocked out whole leaves
its slot, one cut short stays and is counted. That a transaction which ends before its SYNC octet counts nothing is the
model's choice (log 76). -/
def Obligations.CourierTransactionEnds : Prop :=
  ∀ (s : State) (p : Port) (rest : List Byte) (tie : Bool),
    let x := s.port p
    let row := fun (n : Nat) => n + (match p with | .a => 0 | .b => 256)
    let idle := { x with csLow := false, rx := .idle, taken := 0, so := [] }
    let fault := fun (y : Courier) (n : Nat) => (s.setPort p y).notice srcCourierFault (row n)
    (x.csLow = false → exec (.csRise p rest tie) s = .next s)
    ∧ (x.csLow = true → x.live = true → x.shifting = none →
      (x.rx = .ignoring ∨ x.rx = .fallen → Gives (.csRise p rest tie) s (Settles (s.setPort p idle)))
      ∧ (x.rx = .synced → Gives (.csRise p rest tie) s (Settles (fault { idle with torn := bump16 x.torn } 2)))
      ∧ (∀ hdr n r, x.rx = .lengthKnown hdr n r → rest.length < leNat hdr.toList 7 4 + 4 →
          Gives (.csRise p rest tie) s (Settles (fault { idle with torn := bump16 x.torn } 2)))
      ∧ (∀ hdr n r, x.rx = .lengthKnown hdr n r → leNat hdr.toList 7 4 + 4 ≤ rest.length →
          (leNat rest (leNat hdr.toList 7 4) 4 ≠
              (crc32 ((0xA5 : Byte) :: hdr.toList ++ rest.take (leNat hdr.toList 7 4))).toNat
            ∨ zeros hdr.toList 0 3 = false ∨ 2 ^ 29 ≤ leNat hdr.toList 3 4 ∨ courierMax < leNat hdr.toList 7 4) →
          Gives (.csRise p rest tie) s (Settles (fault { idle with damaged := bump16 x.damaged } 3)))
      ∧ (∀ (hdr : Vector Byte 11) (n : Nat) (k : Kind) (refused : Bool),
          let len := leNat hdr.toList 7 4
          let ident : BitVec 29 := BitVec.ofNat 29 (leNat hdr.toList 3 4)
          let o := rest.take len
          let l : Letter := ⟨.courier p, ident, o⟩
          let counted := (s.setPort p { idle with letters := bump16 x.letters }).newCycle tie
          x.rx = .lengthKnown hdr n refused → len + 4 ≤ rest.length → len ≤ courierMax → zeros hdr.toList 0 3 = true →
          leNat hdr.toList 3 4 < 2 ^ 29 → leNat rest len 4 = (crc32 ((0xA5 : Byte) :: hdr.toList ++ o)).toNat →
          (s.shutting = true → Gives (.csRise p rest tie) s (Settles (s.setPort p idle)))
          ∧ (s.shutting = false → s.portHeld p = false → (idRoute ident).toNat < 2 → Kind.ofCode (idKind ident) = some k →
              4 ≤ o.length → (headerLen ≤ o.length → headerFault k o = none) →
            (refused = true →
              Gives (.csRise p rest tie) s (Settles (((s.setPort p idle).newCycle tie).refuse l ⟨stQuota, 2⟩)))
            ∧ (refused = false → headerLen ≤ o.length → o.length = hLetterLen o →
                s.bodyFault k (idRoute ident) l.body = none →
              Gives (.csRise p rest tie) s (Settles (State.grantDocket { counted with
                desks := { counted.desks with lastCourier := some s.clock.uptime } } l k n))))))
    ∧ (x.csLow = true → (x.live = false ∨ x.rx = .idle) →
      exec (.csRise p rest tie) s = .next (s.setPort p { x with csLow := false, rx := .idle, taken := 0 }))
    ∧ (∀ id, x.csLow = true → x.live = true → x.shifting = some id → x.rx = .ignoring →
      (x.so.length ≤ x.taken + rest.length → Gives (.csRise p rest tie) s
        (Settles { s.setPort p { idle with
            shifting := none
            receipts := x.receipts.filter (·.id ≠ id)
            generals := x.generals.filter (·.id ≠ id) } with desk := s.desk.delivered id false false (some p) }))
      ∧ (x.taken + rest.length < x.so.length → Gives (.csRise p rest tie) s
        (Settles (s.setPort p { idle with shifting := none, outTears := bump16 x.outTears }))))

/-! ## Judging letters -/

/-- R244, R246, R270, R281, R284 to R289, R291: an outcome ends the job, takes it out of the order and frees its claim
and earmark. A strike cautions a tenant for 60 s; the third suspends it for 60 s times two to the power of its
suspensions before, at most 960 s; tenant 0 is never suspended. A suspended or recalled tenant takes no strike.
Which strike restarts the caution period, and tenant 0's third, are read as log 37 says. -/
def Obligations.OutcomesAndStrikes : Prop :=
  ∀ s : State,
    (∀ (j : Job) (l : Letter) (st : Byte) (d : Nat), j.letter = some l → j ∈ s.desks.jobs →
      (∀ i ∈ (s.conclude j st d).desks.jobs, i.id = j.id →
          i.outcome = some st ∧ i.claim = 0 ∧ i.earmark = none ∧ i.asked = none)
      ∧ j.id ∉ (s.conclude j st d).desks.order
      ∧ (∀ i ∈ s.desks.jobs, i.id ≠ j.id → i ∈ (s.conclude j st d).desks.jobs))
    ∧ (∀ (t : Tenant) (st : Byte),
      let x := s.desks.standing[t]
      let y := (s.strike t st).desks.standing[t]
      ((x.fault = .healthy ∨ x.fault = .cautioned) → x.strikes < 2 →
        y.fault = .cautioned ∧ y.strikes = x.strikes + 1 ∧ y.cautionEnd = some (s.clock.uptime + 60000))
      ∧ ((x.fault = .healthy ∨ x.fault = .cautioned) → x.strikes = 2 → t = 0 →
          y.fault = .cautioned ∧ y.strikes = 0 ∧ y.cautionEnd = some (s.clock.uptime + 60000))
      ∧ ((x.fault = .healthy ∨ x.fault = .cautioned) → x.strikes = 2 → t ≠ 0 →
          y.fault = .suspended ∧ y.strikes = 0 ∧ y.cautionEnd = none ∧ y.suspensions = x.suspensions + 1
          ∧ y.suspensionEnd = some (s.clock.uptime + 1000 * min 960 (60 * 2 ^ x.suspensions)))
      ∧ ((x.fault = .suspended ∨ x.fault = .recalling) → y = x)
      ∧ (∀ u : Tenant, u ≠ t → ((s.strike t st).desks.standing[u]).held = (s.desks.standing[u]).held))

/-- R104 to R113, R119, R279, R284, R292, R484, Table 3.13: the seal check of the next letter. Without a seal a letter that
needs none goes to its walk, one that needs one is SEAL_FAILED with SEAL_MISSING; a wrong tag is SEAL_FAILED and a counter
that is not above the stored one, or whose both copies are lost, STALE_FRESHNESS, each with a mark and the stored counter as
it was; a counter above it is stored before the walk, whatever follows. A counter that is stored reads back from then on,
every other counter as before, and no octet of the store changes but one word of each ring; said for slots that hold no
counter's newest word, on pages far from the threshold of wear. A word that is lost leaves a counter as it was, or without a
copy that tells it, and so does the loss of both copies of the remap table. A letter whose tag matches has the rings read
first: a word of theirs that has been found damaged is lost then, with UNCORRECTABLE (R622; log 80). A READING that passes is accepted, or waits for
its walk while an unwalked RECALL of its tenant, or a READING that waits so, stands before it (log 70). When a counter's
copies count as lost, and the order of judging, are read as logs 12 and 43 say. -/
def Obligations.SealCheckJudges : Prop :=
  (∀ (st : Store) (t : Tenant) (out : Bool) (w v : Nat), st.plain 40 = true → st.bad = [] → st.counter t out = some w →
    w ≤ v → v < 2 ^ 48 → st.ringKept ringABase (ringTag t out) (st.ringA % 4096) = false →
    st.ringKept ringBBase (ringTag t out) (st.ringB % 4096) = false →
    let u := st.setCounter t out v
    let a0 := ringABase + 8 * (st.ringA % 4096)
    let b0 := ringBBase + 8 * (st.ringB % 4096)
    u.counter t out = some v ∧ (∀ (m : Tenant) (d : Bool), (m ≠ t ∨ d ≠ out) → u.counter m d = st.counter m d)
    ∧ ∀ a, (a < a0 ∨ a0 + 8 ≤ a) → (a < b0 ∨ b0 + 8 ≤ a) → u.read a = st.read a)
  ∧ (∀ (st : Store) (t : Tenant) (out : Bool) (v w a : Nat), st.counter t out = some v →
    ({ st with bad := a :: st.bad } : Store).counter t out = some w → w = v)
  ∧ (∀ (st : Store) (t : Tenant) (out : Bool) (w : Nat), st.tableLost.counter t out = some w →
    ∃ v, st.counter t out = some v ∧ v ≤ w)
  ∧ ∀ (s : State) (j : Job) (l : Letter), s.judges = true → s.sealNext = some j → j.letter = some l →
    let t := l.tenant
    let u := { s with desks := { s.desks with sealTurn := t } }
    let m := u.readWords false [] ringOffset
    let walk := fun (v : State) => v.setJob j.id fun x => { x with st := .walkWait }
    let fails := fun (v : State) (st : Byte) => (v.conclude j st 0).mark t
    let needs := if s.fuses.evaluated then decide (l.kind ≠ some .enquiry) else (s.fuses.tenants[t]).sealReq
    (l.isSealed = false → needs = true → Gives .sealCheck s (Settles (fails (u.notice srcSealMissing t.val) 0x14)))
    ∧ (l.isSealed = true → s.tagMatches l = false →
        Gives .sealCheck s (Settles (fails (u.notice srcSealFailed t.val) 0x14)))
    ∧ (s.store.intact ringOffset = true → m = u)
    ∧ (∀ a, s.store.plain 40 = true → s.store.bad = [] → s.store.unread = ⟨[a], []⟩ → a % 8 = 0 → ringOffset a = true →
        m.store.bad = [a] ∧ m.store.unread = ⟨[], []⟩ ∧ s.store.SameOctets m.store
        ∧ (m.desk.sources[srcUncorrectable]).counter = min 255 ((s.desk.sources[srcUncorrectable]).counter + 1))
    ∧ (∀ v, l.isSealed = true → s.tagMatches l = true → m.store.counter t false = some v → sealCounter l.octets ≤ v →
        Gives .sealCheck s (Settles (fails (m.notice srcStaleFreshness t.val) 0x15)))
    ∧ (l.isSealed = true → s.tagMatches l = true → m.store.counter t false = none →
        Gives .sealCheck s (Settles (fails ((m.notice srcUncorrectable 5).notice srcStaleFreshness t.val) 0x15)))
    ∧ (l.isSealed = false → needs = false → l.kind ≠ some .reading → Gives .sealCheck s (Settles (walk u)))
    ∧ (∀ v, l.isSealed = true → s.tagMatches l = true → m.store.counter t false = some v → v < sealCounter l.octets →
        sealCounter l.octets < 2 ^ 48 - 1 → l.kind ≠ some .reading → Gives .sealCheck s
          (Settles (walk { m with store := m.store.setCounter t false (sealCounter l.octets) })))
    ∧ (l.isSealed = false → needs = false → l.kind = some .reading → s.readingWaits j = true →
        Gives .sealCheck s (Settles (walk u)))
    ∧ (l.isSealed = false → needs = false → l.kind = some .reading → s.readingWaits j = false →
        (s.fuses.tenants[t]).rights.getLsbD 2 = false →
        Gives .sealCheck s (Settles ((u.conclude j stNotPermitted 0).strike t stNotPermitted)))
    ∧ (l.isSealed = false → needs = false → l.kind = some .reading → s.readingWaits j = false →
        (s.fuses.tenants[t]).rights.getLsbD 2 = true →
        Gives .sealCheck s fun z => ∃ r, Settles ((u.acceptReading t l.body).conclude j stDelivered 0) z
          ∧ (u.acceptReading t l.body).store.readings[t] = some r ∧ r.body = l.body ∧ r.time = some s.clock.uptime
          ∧ r.stale = false)

/-- R50, R86, R87, R273, R278, R283, R307 to R317, R320 to R325: Table 8.3's tests in their order, the first that fails giving
the status: a device box is protected; a box that is unmapped, unreadable or past the table is undeliverable; a district that
does not exist is outside; a tenant that does not own it is not permitted, unless waived; then the box against its district
(outside) and the system rows (protected), the rectangle against its box (outside), and for a PEEK against the tile (outside),
each with the number of the box. The tests of a MAP, in the order of Table 8.4: a device box is protected; a mapping needs a
district that exists (outside) and that the tenant may map in; then the district of an entry that is mapped, where it exists
and the entry can be read, is one that the tenant may map in (not permitted); then the clipped rectangle against the district
(outside) and the system rows (protected). The walk of a POST or a MAP: a kind without its right is NOT_PERMITTED with a
strike. On a node of PCLASS 15 every POST is outside (R50). A POST that fails its walk gets the walk's status, with a strike
for a protected region; one that covers no pixel of the board is delivered; any other waits in its order position with its
rectangle on the board, its mode and its tag. An entry that cannot be read is UNDELIVERABLE_BOX, with UNCORRECTABLE unless the
walk's own reads have raised it. A MAP that passes writes the sixteen octets of its box entry, the mapped rectangle or zeros,
and is delivered; an empty entry that is unmapped again is not written, and an entry on a retired page is UNDELIVERABLE_BOX.
No other octet changes, but counts of wear and the spare pages of a remap that the write begins. That UNCORRECTABLE is not
raised a second time (log 46), what a MAP into a retired page gets (log 43) and which letter the walk serves next (log 43) are
the model's readings. -/
def Obligations.PostsAndMapsAreWalkedInOrder : Prop :=
  (∀ (s : State) (t : Tenant) (box x y w h : Nat) (peek waive : Bool),
      let b := s.store.boxRect box
      let r : Rect := ⟨b.x0 + x, b.y0 + y, b.x0 + x + w - 1, b.y0 + y + h - 1⟩
      (0xFFF0 ≤ box → s.walkFault t box x y w h peek waive = some ⟨stProtected, box⟩)
      ∧ (box < 0xFFF0 → (4096 ≤ box ∨ s.store.boxBad box = true ∨ s.store.boxState box ≠ 1) →
          s.walkFault t box x y w h peek waive = some ⟨stUndeliverable, box⟩)
      ∧ (box < 4096 → s.store.boxBad box = false → s.store.boxState box = 1 →
          (s.district (s.store.boxDistrict box) = none → s.walkFault t box x y w h peek waive = some ⟨stOutside, box⟩)
          ∧ (∀ d, s.district (s.store.boxDistrict box) = some d →
            (d.owners.getLsbD t = false → waive = false → s.walkFault t box x y w h peek waive = some ⟨stNotPermitted, 0⟩)
            ∧ ((d.owners.getLsbD t = true ∨ waive = true) →
              (s.walkFault t box x y w h peek waive = none ↔ s.clippedInside b d = true ∧ s.clearOfSystem b = true
                ∧ b.x0 ≤ r.x0 ∧ r.x1 ≤ b.x1 ∧ b.y0 ≤ r.y0 ∧ r.y1 ≤ b.y1
                ∧ (peek = true → ∃ tile, s.tile = some tile ∧ r.inside tile = true))
              ∧ (s.clippedInside b d = false → s.walkFault t box x y w h peek waive = some ⟨stOutside, box⟩)
              ∧ (s.clippedInside b d = true → s.clearOfSystem b = false →
                  s.walkFault t box x y w h peek waive = some ⟨stProtected, box⟩)
              ∧ (s.clippedInside b d = true → s.clearOfSystem b = true →
                  (r.x0 < b.x0 ∨ b.x1 < r.x1 ∨ r.y0 < b.y0 ∨ b.y1 < r.y1) →
                  s.walkFault t box x y w h peek waive = some ⟨stOutside, box⟩)
              ∧ (s.clippedInside b d = true → s.clearOfSystem b = true → peek = true →
                  (∀ tile, s.tile = some tile → r.inside tile = false) →
                  s.walkFault t box x y w h peek waive = some ⟨stOutside, box⟩)))))
  ∧ (∀ (s : State) (t : Tenant) (b : List Byte),
      let box := bBox b
      let entry := if s.store.boxBad box || decide (s.store.boxState box ≠ 1) then none
                   else s.district (s.store.boxDistrict box)
      let may := fun (d : District) => d.owners.getLsbD t && (!d.isShared || decide (t = 0))
      let barred := ∃ e, entry = some e ∧ may e = false
      (0xFFF0 ≤ box → s.mapFault t b = some ⟨stProtected, box⟩)
      ∧ (box < 0xFFF0 → mapOp b ≠ 0 → (barred → s.mapFault t b = some ⟨stNotPermitted, 0⟩)
          ∧ (¬ barred → s.mapFault t b = none))
      ∧ (box < 0xFFF0 → mapOp b = 0 →
          (s.district (mapDistrict b) = none → s.mapFault t b = some ⟨stOutside, box⟩)
          ∧ ∀ d, s.district (mapDistrict b) = some d →
            (may d = false → s.mapFault t b = some ⟨stNotPermitted, 0⟩)
            ∧ (may d = true → barred → s.mapFault t b = some ⟨stNotPermitted, 0⟩)
            ∧ (may d = true → ¬ barred →
              (s.clippedInside (mapRect b) d = false → s.mapFault t b = some ⟨stOutside, box⟩)
              ∧ (s.clippedInside (mapRect b) d = true → s.clearOfSystem (mapRect b) = false →
                  s.mapFault t b = some ⟨stProtected, box⟩)
              ∧ (s.clippedInside (mapRect b) d = true → s.clearOfSystem (mapRect b) = true → s.mapFault t b = none))))
  ∧ (∀ (s : State) (j : Job) (l : Letter) (race : AckRace) (found : Findings),
      s.judges = true → s.walkNext = some j → j.letter = some l →
      let t := l.tenant
      let b := l.body
      let u := { s with desks := { s.desks with walkTurn := t } }.takeFindings false [] l.readsWord found
      let place := boxPlace (u.store.boxRect (bBox b)) (postX b) (postY b) (postW b) (postH b)
      (∀ k, l.kind = some k → u.permitted t k = false → Gives (.letterWalk race found) s
        (Settles ((u.conclude j stNotPermitted 0).strike t stNotPermitted)))
      ∧ (l.kind = some .post → u.permitted t .post = true → s.pclass = 15 →
          Gives (.letterWalk race found) s (Settles (u.conclude j stOutside (bBox b))))
      ∧ (l.kind = some .post → u.permitted t .post = true → u.tile.isSome = true →
        (∀ v, u.walkFault t (bBox b) (postX b) (postY b) (postW b) (postH b) false false = some v →
            v.status ≠ stUndeliverable → Gives (.letterWalk race found) s
          (Settles (let c := u.conclude j v.status v.detail
                    if v.status = stProtected then c.strike t v.status else c)))
        ∧ (u.walkFault t (bBox b) (postX b) (postY b) (postW b) (postH b) false false = some ⟨stUndeliverable, bBox b⟩ →
          Gives (.letterWalk race found) s (Settles ((u.conclude j stUndeliverable (bBox b)).noticeIf
            (decide (bBox b < 4096) && u.store.boxBad (bBox b)
              && !((s.store.unread.lost ++ found.lost).any fun o => l.readsWord (s.store.served o))) srcUncorrectable 4)))
        ∧ (u.walkFault t (bBox b) (postX b) (postY b) (postW b) (postH b) false false = none →
            u.onBoard place = none → Gives (.letterWalk race found) s (Settles (u.conclude j stDelivered 0)))
        ∧ (∀ r, u.walkFault t (bBox b) (postX b) (postY b) (postW b) (postH b) false false = none →
            u.onBoard place = some r → (r.minusAll j.spared).isEmpty = false → u.settling = [] →
          Gives (.letterWalk race found) s (Settles (u.setJob j.id fun x => { x with
            st := .orderWait, rect := some r, mode := postMode b, tag := BitVec.ofNat 16 (postTag b)
            org := (u.origin.1 + r.x0 - place.x0, u.origin.2 + r.y0 - place.y0) }))))
      ∧ (l.kind = some .map → u.permitted t .map = true →
        (∀ v, u.mapFault t b = some v → v.status ≠ stUndeliverable → Gives (.letterWalk race found) s
          (Settles (let c := u.conclude j v.status v.detail
                    if v.status = stProtected then c.strike t v.status else c)))
        ∧ (u.mapFault t b = none → u.store.isRetired (boxBase + 16 * bBox b) = true → Gives (.letterWalk race found) s
          (Settles (u.conclude j stUndeliverable (bBox b))))
        ∧ (u.mapFault t b = none → u.store.isRetired (boxBase + 16 * bBox b) = false →
          (mapOp b ≠ 0 → u.store.boxState (bBox b) = 0 → u.store.boxBad (bBox b) = false →
            Gives (.letterWalk race found) s (Settles (u.conclude j stDelivered 0)))
          ∧ ((mapOp b = 0 ∨ u.store.boxState (bBox b) ≠ 0 ∨ u.store.boxBad (bBox b) = true) →
            let entry := if mapOp b = 0 then boxEntry (mapRect b) (mapDistrict b) true else List.replicate 16 0
            let st := u.store.writeBox (bBox b) entry
            Gives (.letterWalk race found) s (Settles ({ u with store := st }.conclude j stDelivered 0))
            ∧ (u.store.plain 40 = true → bBox b < 4096 →
              (∀ i < 16, st.read (boxBase + 16 * bBox b + i) = octet entry i)
              ∧ ∀ a, (a < boxBase + 16 * bBox b ∨ boxBase + 16 * bBox b + 16 ≤ a) → regionCode a ≠ 7 → regionCode a ≠ 10 →
                  st.read a = u.store.read a)))))

/-- R87, R239, R243, R292 to R300, R366, R368, R372, R373, R376, R436, R517, R518, R532, R533, R548: the walk of the other
kinds: STAMP writes its segments and their LIFE; SUBSCRIBE changes the subscribed sources of its mask and no other;
ACKNOWLEDGE clears what its tenant subscribes; RECALL makes an enabled target RECALLING and withdraws its letters, a
staged POST with its pixels set back, joins a recall that runs, completes at once when nothing of the target has started,
leaves subscriptions, other events, stamp and readings alone, and is delivered at once for a disabled target; a PEEK of
the ledger is tenant 0's; RELEASE waits for its panel frame, in the order of completion, when it names a staged POST or is
all-or-none, WEIGH for a weigh-in, which begins, PEEK and WAVESET for theirs, but a WAVESET for a store that cannot be
written is not permitted. A READING that has waited behind a RECALL is
accepted (log 70). That an ACKNOWLEDGE's operands say how far events had come (R549; log 57), and that a RECALL is ACCEPTED
before its target's letters are answered (log 76), are the model's choices. Left
out here: the FALLBACK bits of a STAMP, a SUBSCRIBE with SUB into the fast class, a short ENQUIRY, a WEIGH that joins a
weigh-in. -/
def Obligations.OtherKindsAreWalked : Prop :=
  ∀ (s : State) (j : Job) (l : Letter) (race : AckRace) (found : Findings),
    s.judges = true → s.walkNext = some j → j.letter = some l →
    let t := l.tenant
    let b := l.body
    let u := { s with desks := { s.desks with walkTurn := t } }.takeFindings false [] l.readsWord found
    let waits := u.setJob j.id fun x => { x with st := .pendingEffect }
    (l.kind = some .reading → u.permitted t .reading = true → Gives (.letterWalk race found) s fun z => ∃ r,
      Settles ((u.acceptReading t b).conclude j stDelivered 0) z ∧ (u.acceptReading t b).store.readings[t] = some r
      ∧ r.body = b ∧ r.time = some u.clock.uptime ∧ r.stale = false)
    ∧ (l.kind = some .stamp → u.permitted t .stamp = true → Gives (.letterWalk race found) s fun z => ∃ p,
      Settles ({ u with stamp := p }.conclude j stDelivered 0) z
      ∧ (∀ n : Fin 32, p.segs[n] = if (stampMask b).testBit n then Fin.ofNat 4 (stampPattern b n) else u.stamp.segs[n])
      ∧ (∀ n : Fin 32, (p.fallback[n]).map (·.1) = if (stampMask b).testBit n
          then (if stampLife b = 0 then none else some (u.clock.uptime + 1000 * stampLife b))
          else (u.stamp.fallback[n]).map (·.1))
      ∧ p.field = u.stamp.field ∧ p.vlcd = u.stamp.vlcd)
    ∧ (l.kind = some .subscribe → u.permitted t .subscribe = true → (subFlags b).testBit 0 = false →
      Gives (.letterWalk race found) s fun z => ∃ d, Settles ({ u with desk := d }.conclude j stDelivered 0) z
      ∧ (∀ n : Fin 64, (d.subs[t]).word.getLsbD n = if (subMask b).testBit n then (subValue b).testBit n
          else (u.desk.subs[t]).word.getLsbD n)
      ∧ (d.subs[t]).inlet = some l.inlet ∧ (∀ m : Tenant, m ≠ t → d.subs[m] = u.desk.subs[m])
      ∧ d.sources = u.desk.sources)
    ∧ (l.kind = some .subscribe → u.permitted t .subscribe = true → (subFlags b).testBit 0 = true →
      (u.fuses.tenants[t]).fastClass = false → Gives (.letterWalk race found) s
        (Settles ((u.conclude j stNotPermitted 0).strike t stNotPermitted)))
    ∧ (l.kind = some .acknowledge → Gives (.letterWalk race found) s fun z => ∃ d,
      Settles ({ u with desk := d }.conclude j stDelivered 0) z ∧ d.subs = u.desk.subs ∧ d.opening = race.later
      ∧ d.window = (if race.own then max 1 u.desk.window else u.desk.window)
      ∧ (∀ i : Fin 64, d.sources[i] = if (ackClear b).testBit i && (u.desk.subs[t]).word.getLsbD i
          then { u.desk.sources[i] with pending := false, inHand := false } else u.desk.sources[i]))
    ∧ (l.kind = some .recall → t = 0 → (u.fuses.tenants[tenantOf (recallTarget b)]).enable = false →
      Gives (.letterWalk race found) s (Settles (u.conclude j stDelivered 0)))
    ∧ (l.kind = some .recall → t = 0 → 1 ≤ recallTarget b → recallTarget b ≤ 31 →
      (u.fuses.tenants[tenantOf (recallTarget b)]).enable = true →
      let n := tenantOf (recallTarget b)
      let a := waits.progress j stAccepted 0
      let w := (a.setFault n { a.desks.standing[n] with
        fault := .recalling, cautionEnd := none, suspensionEnd := none }).withdraw n stRecalled
      let v := { w with desks := { w.desks with recalls := w.desks.recalls ++ [(n, [j.id])] } }
      let mine := u.desks.jobs.filter fun i => i.tenant = some n
      ((u.desks.recalls.any (·.1 = n)) = true → Gives (.letterWalk race found) s
        (Settles { a with desks := { a.desks with
          recalls := a.desks.recalls.map fun r => if r.1 = n then (r.1, r.2 ++ [j.id]) else r } }))
      ∧ ((u.desks.recalls.any (·.1 = n)) = false → Gives (.letterWalk race found) s fun z => Settles v z
        ∧ (v.desks.standing[n]).fault = .recalling ∧ v.desks.recalls = u.desks.recalls ++ [(n, [j.id])]
        ∧ (∀ i ∈ v.openJobs, i.tenant = some n → i.started = true)
        ∧ (∀ i ∈ u.openJobs, i.tenant ≠ some n → i.id ≠ j.id →
            (∀ k ∈ u.desks.jobs, k.id = i.id → k = i) → i ∈ v.openJobs)
        ∧ z.desk.subs = u.desk.subs ∧ z.stamp.segs = u.stamp.segs ∧ z.stamp.fallback = u.stamp.fallback
        ∧ z.store.readings = u.store.readings
        ∧ (∀ i : Fin 64, i ∉ followSources → i ≠ srcFaultState → i ≠ srcRecallDone → i ≠ srcCounterEnd →
            (z.desk.sources[i]).counter = (u.desk.sources[i]).counter
            ∧ (z.desk.sources[i]).pending = (u.desk.sources[i]).pending)
        ∧ (u.desks.recalls = [] → (∀ i ∈ mine, i.outcome.isSome = true ∨ i.started = false) →
            z.desks.recalls = [] ∧ (z.desks.standing[n]).fault = .healthy ∧ (z.desks.standing[n]).strikes = 0
            ∧ (z.desks.standing[n]).suspensionEnd = none ∧ (∀ i ∈ z.openJobs, i.id ≠ j.id)
            ∧ (z.desk.sources[srcRecallDone]).counter = min 255 ((u.desk.sources[srcRecallDone]).counter + 1))
        ∧ (∀ i, mine = [i] → i.outcome = none → u.unstartedStage i = true → i.committed = true →
            u.mustSeal (u.owner l) = false → (∀ m, i.letter = some m → u.mustSeal (u.owner m) = false) →
            u.desks.recalls = [] →
            u.store.plain (10 * i.parts.length + 20) = true →
            (∀ p ∈ i.parts, p.rect.x1 < 4096 ∧ p.rect.y1 < 3072) →
            (∀ p ∈ i.parts, ∀ x y, p.rect.contains x y = true →
              z.store.pixel targetBase x y = u.store.pixel shownBase x y)
            ∧ (∀ a, regionCode a ≠ 2 → z.store.read a = u.store.read a)
            ∧ (z.board.lanesOf i.id = []) ∧ ∀ k ∈ z.openJobs, k.id ≠ i.id)))
    ∧ (l.kind = some .peek → u.permitted t .peek = true → peekPlane b ≠ 2 → peekLen b ≤ 262144 →
      u.walkFault t (peekBox b) (peekX b) (peekY b) (peekW b) (peekH b) true false = none →
      let place := boxPlace (u.store.boxRect (peekBox b)) (peekX b) (peekY b) (peekW b) (peekH b)
      Gives (.letterWalk race found) s (Settles (u.setJob j.id fun x => { x with
        st := .pendingEffect, rect := u.onBoard place })))
    ∧ (l.kind = some .peek → u.permitted t .peek = true → peekPlane b = 2 → t ≠ 0 → Gives (.letterWalk race found) s
      (Settles ((u.conclude j stNotPermitted 0).strike t stNotPermitted)))
    ∧ (l.kind = some .waveset → t = 0 → u.store.waveRetired = false → Gives (.letterWalk race found) s (Settles waits))
    ∧ (l.kind = some .waveset → t = 0 → u.store.waveRetired = true → Gives (.letterWalk race found) s
      (Settles (u.conclude j stNotPermitted 0)))
    ∧ (l.kind = some .weigh → u.permitted t .weigh = true → u.mayWeigh = true → u.energy.weighing = false →
      Gives (.letterWalk race found) s (Settles { u.setJob j.id (fun x =>
          { x with st := .pendingEffect, asked := some u.energy.nextAsk }) with
        energy := { u.energy with
          nextAsk := u.energy.nextAsk + 1, weighs := u.energy.weighs ++ [j.id], weighing := true
          charger := if u.energy.charger = Charger.on then .paused else u.energy.charger } }))
    ∧ (l.kind = some .release → u.permitted t .release = true → relForm b ≠ 1 → u.releasePosts j t (relTag b) = [] →
      Gives (.letterWalk race found) s (Settles (u.conclude j stDelivered 0)))
    ∧ (l.kind = some .release → u.permitted t .release = true →
      (relForm b = 1 ∨ u.releasePosts j t (relTag b) ≠ []) → Gives (.letterWalk race found) s fun z => Settles waits z
        ∧ (u.recallsRest = true → z.board.releases
            = u.queueRelease ⟨j.id, u.releasePosts j t (relTag b), decide (relForm b = 1), u.weighsSoFar⟩))
    ∧ (l.kind = some .enquiry → (u.fuses.evaluated = false ∨ l.isSealed = true) → Gives (.letterWalk race found) s
      (Settles (u.answer j kStatus (u.statusBody false) false)))

/-! ## Energy and earmarks -/

/-- R26, R386, R431, R436, R437, R442 to R447, R489, R693: a POST that asks takes the next place in the asking order
with its need, and ends QUIET; without a fresh result a weigh-in begins and the charger pauses; with one, the job alone
in asking is granted its need where E_F, H and the need fit E_U, and becomes HELD with its shortfall where they do not.
A POST whose mode the set has not is rejected as it leaves the Order wait, and one that asks again from HELD is checked no
more before its copy (R386); while the board is disabled a POST waits HELD. Renders, settling and
cleaning rounds ask in the same way. The timers start a weigh-in in the cases of R436, and VHOLD below the guard voltage
does and bars every grant while it is below. That the asking itself ends QUIET (log 39), at which moment a render asks
(log 51), and that the guard is held against VHOLD as it was last seen (log 49), are the model's readings; the split of a
need and of its shortfall under HVSRC 1 is its choice (log 30), and so is that a block
outside the set lets a later one ask (log 79). -/
def Obligations.EarmarksAreAskedFor : Prop :=
  ∀ (s : State), s.mayWeigh = true →
    let weighing := fun (u : State) => { u with energy := { u.energy with
      weighing := true, charger := if u.energy.charger = Charger.on then Charger.paused else u.energy.charger } }
    let asked := fun (u : State) (i need xneed : Nat) => { u.setJob i fun x =>
        { x with need := need, xneed := xneed, asked := some s.energy.nextAsk } with
      energy := { u.energy with nextAsk := s.energy.nextAsk + 1 }
      mode := if s.mode = .quiet then .active else s.mode }
    (∀ i j frames, s.start.rotated = true → (∀ b ∈ s.settling, s.blockIdle b.1 b.2 = true) →
      s.desks.jobs.filter (·.id = i) = [j] → s.postAsks j = true → j.kind = .letter → j.started = false →
      s.boardSize.isSome = true →
      s.modeLen j.mode = some frames →
      let need := s.needOf ((j.rect.map Rect.area).getD 0) (frames + s.tailLen)
      let v := asked s i need.1 need.2
      (s.boardDisabled = false → s.freshWeigh = false → s.energy.weighing = false →
        Gives (.earmarkRequest (.post i)) s (Settles (weighing v)))
      ∧ (s.boardDisabled = false → s.freshWeigh = true → s.energy.weighing = false → s.askers = [] →
          s.covers? need.1 need.2 = true →
        Gives (.earmarkRequest (.post i)) s (Settles { v.setJob i (fun x => { x with
            st := .committing, asked := none, heldSince := none
            earmark := some ⟨need.1, need.2, s.energy.nextGrant, none, none⟩ }) with
          energy := { v.energy with nextGrant := s.energy.nextGrant + 1 } }))
      ∧ (s.boardDisabled = false → s.freshWeigh = true → s.energy.weighing = false → s.askers = [] →
          s.covers? need.1 need.2 = false →
        j.st = .orderWait → j.heldSince = none → Gives (.earmarkRequest (.post i)) s (Settles ((v.setJob i fun x =>
          { x with st := .held, heldSince := some s.clock.uptime }).progress j stHeld
            (min 0xFFFFFF (s.shortfall need.1)))))
      ∧ (s.boardDisabled = true → j.st = .orderWait → Gives (.earmarkRequest (.post i)) s (Settles ((s.setJob i fun x =>
          { x with st := .held, asked := none, heldSince := none }).progress j stHeld 0))))
    ∧ (∀ i j, s.start.rotated = true → (∀ b ∈ s.settling, s.blockIdle b.1 b.2 = true) → s.job? i = some j →
        s.postAsks j = true → j.started = false → s.boardSize.isSome = true → s.modeLen j.mode = none →
        j.st = .orderWait → Gives (.earmarkRequest (.post i)) s (Settles (s.conclude j stMalformed 8)))
    ∧ (∀ i j, s.start.rotated = true → (∀ b ∈ s.settling, s.blockIdle b.1 b.2 = true) →
        s.desks.jobs.filter (·.id = i) = [j] → s.postAsks j = true → j.started = false → s.boardSize.isSome = true →
        s.modeLen j.mode = none → j.st = .held → s.boardDisabled = false → s.freshWeigh = false →
        s.energy.weighing = false →
        let need := s.needOf ((j.rect.map Rect.area).getD 0) (s.needFrames j.kind j.mode)
        Gives (.earmarkRequest (.post i)) s (Settles (weighing (asked s i need.1 need.2))))
    ∧ (∀ (who : Asker) (k : JobKind) (r : Rect) (mode claim : Nat), (∀ b ∈ s.settling, s.blockIdle b.1 b.2 = true) →
        (∀ j ∈ s.desks.jobs, j.id < s.desks.nextJob) → s.freshWeigh = false → s.energy.weighing = false →
        (match k with
          | .letter => False
          | .render tile => who = .render tile ∧ s.tileRect tile.val = some r ∧ (s.renders[tile]).pending = true
              ∧ s.renderBusy tile = false ∧ claim = renderGranules r ∧ s.allClaims + claim ≤ shelfGranules
              ∧ mode = if (s.renders[tile]).drawn then 1 else 0
          | .settling c w => who = .settling c w ∧ s.start.rotated = true ∧ s.blockRect c w = some r
              ∧ s.nextBlock = some (c, w) ∧ mode = 0 ∧ claim = 0
          | .cleaning i => who = .cleaning i ∧ s.start.rotated = true ∧ mode = 15 ∧ claim = 0
              ∧ ∃ t, s.torn.find? (·.id = i) = some t ∧ s.cleanable t = true ∧ r = t.rect) →
        let j := { Job.new s.desks.nextJob k none .orderWait claim with rect := some r, mode := mode }
        let need := s.needOf r.area (s.needFrames k mode)
        Gives (.earmarkRequest who) s (Settles (weighing (asked { s with desks := { s.desks with
          jobs := s.desks.jobs ++ [j], nextJob := s.desks.nextJob + 1 } } j.id need.1 need.2))))
    ∧ (∀ w, s.energy.latest = some w → s.energy.weighing = false →
        ((w.time + 30000 ≤ s.clock.uptime ∧ ∃ j ∈ s.desks.jobs, j.earmark.isSome = true)
          ∨ (w.time + 2000 ≤ s.clock.uptime ∧ ∃ j ∈ s.desks.jobs, j.asked.isSome = true ∧ j.earmark = none)) →
        Gives .weighInTimer s (Settles (weighing s)))
    ∧ (∀ w, s.energy.latest = some w → s.clock.uptime < w.time + 2000 → exec .weighInTimer s = .next s)
    ∧ (∀ w i d mv, s.energy.latest = some w → w.cap = some (i, d) → s.guarded = false →
        let beyond := 10 * mv - 88
        let seen := { s with energy := { s.energy with vhold := 10 * mv } }
        (10 * mv < 88 ∨ 18000 * i * (beyond * beyond) < 18000 * i * (45000 * 45000) + (s.floor + s.held) * d) →
        (s.energy.weighing = false → Gives (.vholdBelowGuard mv) s (Settles (weighing seen)))
        ∧ (s.energy.weighing = true → Gives (.vholdBelowGuard mv) s (Settles seen)))
    ∧ (∀ need xneed, s.guarded = true → s.covers? need xneed = false)

/-- R26, R372, R377, R378, R431, R433 to R435, R446, R449, R451, Table 6.22: a weigh-in ends with E_U of R433, 0 at 4.5 V or
less and when it has failed, and the charger goes on; a failure raises WEIGH_FAILED. With nothing asking nothing else happens.
While H does not fit, the earmark of the STAGED POST that was granted last is dropped, with EARMARK_DROPPED. A need that does
not fit holds back every later one; a single need that fits is granted, and arms the lanes of a POST that has been released. A
weigh-in that failed or applied no load leaves no C, and so no guard: the model's choice (log 49). A WEIGH alone in asking
that finds no fully staged POST is answered with RESULT 2; one that finds some with 3 where the board is disabled, the
weigh-in failed or the charger is kept off, with 0 and a fresh earmark for ten seconds where USABLE covers NEED, and else with
1. NEED and USABLE in whole mJ and the side of the need under HVSRC 1 are the model's choices (log 30), and the POSTs that a
shortage may drop its reading (log 49 too). -/
def Obligations.WeighInsEnd : Prop :=
  ∀ (s : State) (v0 dv ihv : Nat), s.energy.weighing = true → s.mayWeigh = true →
    let eu := if 44 * v0 ≤ 45000 ∨ 4096 < dv ∨ 44 * (v0 - 2) ≤ 45000 then 0
              else 18000 * (50000 + ihv) * ((44 * (v0 - 2)) * (44 * (v0 - 2)) - 45000 * 45000) / (dv + 2)
    let failed := decide (45000 < 44 * v0 ∧ 4096 < dv)
    let u := { s with energy := { s.energy with
      weighing := false
      latest := some { time := s.clock.uptime, eu := eu, failed := failed, v0 := v0,
                       cap := if 44 * v0 ≤ 45000 ∨ 4096 < dv then none else some (50000 + ihv, dv + 2) }
      charger := if s.energy.charger = Charger.paused then Charger.on else s.energy.charger
      vhold := 44 * v0 } }
    let noted := fun (x : State) => if failed then x.notice srcWeighFailed (44 * v0 / 100) else x
    (Gives (.weighInEnd v0 dv ihv) s fun t => t.energy.latest = u.energy.latest ∧ t.energy.weighing = false
        ∧ t.energy.charger = u.energy.charger
        ∧ (failed = true → s.desks.recalls = [] → (t.desk.sources[srcWeighFailed]).counter
            = min 255 ((s.desk.sources[srcWeighFailed]).counter + 1)))
    ∧ (s.stagedEarmarks = [] → s.askers = [] → Gives (.weighInEnd v0 dv ihv) s (Settles (noted u)))
    ∧ (∀ j r e, s.stagedEarmarks = j :: r → s.askers = [] → j.asked = none → j.earmark = some e →
        (∀ x ∈ s.desks.jobs, ∀ y ∈ s.desks.jobs, x.id = y.id → x = y) →
        (s.floor + s.held ≤ eu → Gives (.weighInEnd v0 dv ihv) s (Settles (noted u)))
        ∧ (eu < s.floor + s.held → (r = [] ∨ s.floor + (s.held - e.held) ≤ eu) → Gives (.weighInEnd v0 dv ihv) s
          (Settles (((noted u).setJob j.id fun x => { x with earmark := none }).notice srcEarmarkDropped
            (j.tag.toNat + 65536 * (j.tenant.map (·.val)).getD 0)))))
    ∧ (∀ j r, s.stagedEarmarks = [] → s.askers = j :: r → (∀ x ∈ j :: r, x.isPost = true ∧ x.started = false ∧ x.st = .held
          ∧ x.heldSince.isSome = true ∧ s.job? x.id = some x) →
        (∀ x ∈ s.desks.jobs, ∀ y ∈ s.desks.jobs, x.id = y.id → x = y) →
        (eu < s.floor + s.held + j.need → Gives (.weighInEnd v0 dv ihv) s (Settles (noted u)))
        ∧ (s.floor + s.held + j.need ≤ eu → j.xneed = 0 → r = [] → j.kind = .letter → Gives (.weighInEnd v0 dv ihv) s
          (Settles { u.setJob j.id (fun x => { x with
              st := .committing, asked := none, heldSince := none
              earmark := some ⟨j.need, 0, s.energy.nextGrant, none, none⟩ }) with
            energy := { u.energy with nextGrant := s.energy.nextGrant + 1 } })))
    ∧ (∀ j, s.stagedEarmarks = [] → s.askers = [j] → s.job? j.id = some j → j.kind = .letter → j.isPost = true →
        j.started = true → s.floor + s.held + j.need ≤ eu → j.xneed = 0 → Gives (.weighInEnd v0 dv ihv) s
          (Settles { u.setJob j.id (fun x => { x with
              asked := none, heldSince := none, earmark := some ⟨j.need, 0, s.energy.nextGrant, none, none⟩ }) with
            energy := { u.energy with nextGrant := s.energy.nextGrant + 1 }
            board := { s.board with lanes := s.board.lanes.map fun l =>
              if l.job = j.id && l.st = .staged then { l with st := .armed } else l } }))
    ∧ (∀ j l, s.stagedEarmarks = [] → s.askers = [j] → s.job? j.id = some j → j.letter = some l → l.kind = some .weigh →
        (s.weighed l.tenant (relTag l.body)).posts = [] → failed = false → s.boardDisabled = false →
        s.chargerBarred = false → Gives (.weighInEnd v0 dv ihv) s
          (Settles ({ u with energy := { u.energy with weighs := s.energy.weighs.filter (· ≠ j.id) } }.answer j kWeight
            (s.postmark ++ [2] ++ leBytes (relTag l.body) 2 ++ [0, 0]
              ++ leBytes (min (2 ^ 32 - 1) ((eu - s.floor - s.held) / fJ)) 4 ++ [0, 0, 0, 0] ++ [0, 0] ++ [0, 0]) false)))
    ∧ (∀ j l, s.stagedEarmarks = [] → s.askers = [j] → s.job? j.id = some j → j.letter = some l → l.kind = some .weigh →
        let w := u.weighed l.tenant (relTag l.body)
        let own := w.posts.foldl (fun n x => n + (x.earmark.map (·.held)).getD 0) 0
        let xown := w.posts.foldl (fun n x => n + (x.earmark.map (·.xheld)).getD 0) 0
        let needs := w.posts.map fun x => s.needOf ((x.rect.map Rect.area).getD 0) (s.needFrames x.kind x.mode)
        let usable := (eu - s.floor - (s.held - own)) / fJ
        let xtotal := needs.foldl (fun n x => n + x.2) 0
        let total := needs.foldl (fun n x => n + x.1) 0 + xtotal
        let fits := (total + fJ - 1) / fJ ≤ usable
          ∧ (s.setup.hvsrc = true → s.xheld - xown + xtotal ≤ s.declared)
        let answered := fun (x : State) (result hold : Nat) =>
          State.answer { x with energy := { x.energy with weighs := s.energy.weighs.filter (· ≠ j.id) } } j kWeight
            (s.postmark ++ leBytes result 1 ++ leBytes (relTag l.body) 2 ++ leBytes 0 2
              ++ leBytes (min (2 ^ 32 - 1) usable) 4 ++ leBytes (min (2 ^ 32 - 1) ((total + fJ - 1) / fJ)) 4
              ++ leBytes hold 2 ++ leBytes 0 2) false
        (∀ x, x ∈ w.posts ↔ x ∈ s.desks.jobs ∧ x.stagedFor l.tenant (relTag l.body) = true ∧ s.fullyStaged x = true)
        ∧ (w.posts ≠ [] → (failed = true ∨ s.boardDisabled = true ∨ s.chargerBarred = true) →
            Gives (.weighInEnd v0 dv ihv) s (Settles (answered (noted u) 3 0)))
        ∧ (w.posts ≠ [] → failed = false → s.boardDisabled = false → s.chargerBarred = false → ¬ fits →
            Gives (.weighInEnd v0 dv ihv) s (Settles (answered u 1 0)))
        ∧ (∀ p need, w.posts = [p] → needs = [need] → p.released = false → failed = false → s.boardDisabled = false →
            s.chargerBarred = false → fits → Gives (.weighInEnd v0 dv ihv) s (Settles (answered { u.setJob p.id (fun x =>
              { x with earmark := some ⟨need.1, need.2, s.energy.nextGrant, some (j.id, l.tenant),
                         some (s.clock.uptime + 10000)⟩
                       asked := none, heldSince := none, need := need.1, xneed := need.2 }) with
              energy := { u.energy with nextGrant := s.energy.nextGrant + 1 } } 0 10000))))

/-- R377, R448, R490, R509: a POST HELD for 60 s makes "energy short"; a render that has waited 60 s for its granules or
its earmark raises RENDER_WAITING; an earmark that a WEIGH made falls at its time, and one that the commit of a staged
POST left falls at its own; before its time each of the four commands changes nothing. -/
def Obligations.EnergyTimersRunOut : Prop :=
  ∀ (s : State),
    (∀ j ∈ s.desks.jobs, ∀ w, j.isPost = true → j.st = .held → j.heldSince = some w → w + 60000 ≤ s.clock.uptime →
      s.energy.shortHeld = false → Gives .energyShortTimer s fun t => Settles s t
        ∧ (s.recallsRest = true → t.energy.shortHeld = true ∧ t.energyShort = true))
    ∧ ((∀ j ∈ s.desks.jobs, j.isPost = true → j.st = .held → ∀ w, j.heldSince = some w → s.clock.uptime < w + 60000) →
        exec .energyShortTimer s = .next s)
    ∧ (∀ tile : Fin 33, (∀ w, (s.renders[tile]).since = some w → s.clock.uptime < w + 60000) →
        exec (.renderWaitTimer tile) s = .next s)
    ∧ (∀ weigh : Nat, (∀ j ∈ s.desks.jobs, ∀ e t q, j.earmark = some e → e.weigh = some (weigh, t) → e.expiry = some q →
        s.clock.uptime < q) → exec (.weighHoldExpiry weigh) s = .next s)
    ∧ (∀ (tile : Fin 33) (w : Nat), (s.renders[tile]).pending = true → (s.renders[tile]).waitNoted = false →
        (s.renders[tile]).since = some w → w + 60000 ≤ s.clock.uptime → Gives (.renderWaitTimer tile) s fun t =>
          Settles (s.notice srcRenderWaiting tile.val) t ∧ (t.renders[tile]).waitNoted = true)
    ∧ (∀ tile : Fin 33, (s.renders[tile]).waitNoted = true → exec (.renderWaitTimer tile) s = .next s)
    ∧ (∀ (weigh : Nat) (j : Job) (e : Earmark) (t : Tenant) (at' : Nat), j ∈ s.desks.jobs → j.earmark = some e →
        e.weigh = some (weigh, t) → e.expiry = some at' → at' ≤ s.clock.uptime →
        let beyond := fun (x : Job) => x.earmark.any fun d => decide (d.weigh.map (·.1) = some weigh)
          && d.expiry.any fun q => decide (q ≤ s.clock.uptime)
        Gives (.weighHoldExpiry weigh) s (Settles { s with desks := { s.desks with
          jobs := s.desks.jobs.map fun x => if beyond x then { x with earmark := none } else x } }))
    ∧ (∀ (i : Nat) (j : Job) (e : Earmark) (at' : Nat), s.job? i = some j → j.earmark = some e → e.weigh = none →
        e.expiry = some at' → (at' ≤ s.clock.uptime → Gives (.stagedEarmarkLapse i) s
            (Settles (s.setJob i fun x => { x with earmark := none })))
          ∧ (s.clock.uptime < at' → exec (.stagedEarmarkLapse i) s = .next s))

/-! ## Commits, lanes, panel frames, write-backs, releases -/

/-- R24, R30, R270, R274, R360 to R364, R386, R406, R408, R448, R461, R472, R499: a commit copies one part at a time, the
first that nothing covers, and never without an earmark; its start enters the journal and makes the POST ACCEPTED, and the
POSTs that precede it spare its rectangle, or, left with no pixel, are delivered. Over cells outside the set nothing is
copied: the job is Deferred and its earmark freed. A part whose cover has gone is divided again. The copy writes the
target plane over the part and nothing else; with the last copy the shelf claim is free, and a staged POST's earmark holds
for 60 s. -/
def Obligations.PartsAreCopied : Prop :=
  ∀ (s : State) (i : Nat) (j : Job), (∀ b ∈ s.settling, s.blockIdle b.1 b.2 = true) →
    s.desks.jobs.filter (·.id = i) = [j] →
    let n := s.store.nextRound
    let stirred := if s.mode = .quiet then Mode.active else s.mode
    (j.earmark = none → exec (.partCopyStart i) s = .next s)
    ∧ (∀ r, s.mayCopy j = true → j.started = false → j.rect = some r → s.boardSize.isSome = true →
        (s.modeLen j.mode).isSome = true →
        (∀ pre p post, s.divide j (r.minusAll j.spared) = pre ++ p :: post → (∀ q ∈ pre, q.waitOn ≠ []) → p.waitOn = [] →
          (s.outsideSet r = none →
            let u : State := s.setJob i fun x => { x with
                parts := pre ++ { p with st := .copying, round := n } :: post, started := true
                st := if x.st = .running then .running else .committing }
            let v : State := match j.letter with
              | some l => ({ u with store := { Store.journal { s.store with nextRound := n + 1 } (some (j.id, .commit)) with
                  posts := s.store.posts ++ [{ job := j.id, letter := l, copied := [], ran := false, boot := s.boot }]
                  } } : State).progress j stAccepted 0
              | none => { u with store := { s.store with nextRound := n + 1 } }
            Gives (.partCopyStart i) s (Settles { v.spareFor j with mode := stirred }))
          ∧ (∀ t, s.outsideSet r = some t →
            let u : State := s.setJob i fun x => { x with st := .deferred, earmark := none, snap := none }
            Gives (.partCopyStart i) s (Settles (match j.kind with
              | .render tile => ({ u with desks := { u.desks with
                  order := s.desks.order.filter (· ≠ i) } } : State).notice srcRenderDeferred tile.val
              | .letter | .settling _ _ | .cleaning _ => u.progress j stWeather (wholeDegrees t)))))
        ∧ ((∀ q ∈ s.divide j (r.minusAll j.spared), q.waitOn ≠ []) → exec (.partCopyStart i) s = .next s))
    ∧ (∀ pre p post q qs, s.mayCopy j = true → j.started = true → j.parts = pre ++ p :: post →
        (∀ x ∈ pre, s.partClear j x = false) → s.partClear j p = true → s.divide j [p.rect] = q :: qs → q.waitOn = [] →
        Gives (.partCopyStart i) s (Settles { s.setJob i (fun x => { x with
            parts := pre ++ { q with st := .copying, round := n } :: qs ++ s.retest j post
            st := if x.st = .running then .running else .committing }) with
          mode := stirred, store := { s.store with nextRound := n + 1 } }))
    ∧ (∀ m rect x l, j.letter = some m → j.rect = some rect → x ∈ s.desks.jobs → (∀ z ∈ s.desks.jobs, z.id = x.id → z = x) →
        x.started = false → x.outcome = none → x.letter = some l → l.precedesPost m = true →
        ∀ z ∈ (s.spareFor j).desks.jobs, z.id = x.id → z.outcome = some stDelivered ∨ rect ∈ z.spared)
    ∧ (∀ pre p post, s.awake = true → s.discharging = false → j.parts = pre ++ p :: post → p.st = .copying →
        (∀ q ∈ pre ++ post, q.st ≠ .copying) → j.withdrawn = none →
        let whole := j.started && (pre ++ post).all (·.st ≠ PartState.waiting)
        Gives (.partCopyEnd i) s fun t => (∃ st, Settles (({ s with store := st } : State).setJob i fun x => { x with
            parts := pre ++ { p with st := .copied } :: post
            claim := if whole then 0 else x.claim
            st := if whole ∧ x.tag = 0 ∧ (pre ++ post).any (·.st ≠ PartState.copied) then .running else x.st
            earmark := if whole ∧ x.tag ≠ 0 ∧ x.released = false
              then x.earmark.map fun e => { e with expiry := some (s.clock.uptime + 60000) } else x.earmark }) t)
          ∧ (s.recallsRest = true → s.store.plain 10 = true → p.rect.x1 < 4096 → p.rect.y1 < 3072 →
              (∀ x < 4096, ∀ y < 3072, t.store.pixel targetBase x y =
                if p.rect.contains x y then s.jobPixel j x y else s.store.pixel targetBase x y)
              ∧ ∀ a, (a < targetBase ∨ ledgerBase ≤ a) → t.store.read a = s.store.read a))

/-- R22, R23, R344, R347, R348, R355 to R357, R364, R454, R455, R474, R475: the lowest FREE lane is granted to the first of
the jobs in order position with a part that asks, past staged POSTs that wait under R356, to its first part in raster order:
ARMED, or STAGED for a staged POST that is not released, or not earmarked. Rails that are off are enabled by it unless the
loop reads open, which disables the board. An external supply whose HVGOOD is low is waited for. With no FREE lane, a request
tries rails that are off, as it does 10 s after an HVGOOD timeout, and nothing else. With no part that asks, no rotation yet,
no board, or fewer than two pages of the journal left, nothing happens. A cleaning round takes its lane before all others,
once no round and no copy lies over it, ARMED with the frames of mode 15; a settling round takes one, without mode frames,
where no tenant round and no cleaning round waits and at least eight lanes are free, and its block is due no more. That a
released POST without an earmark takes its lane STAGED (log 29), that the grant which finds the loop open keeps its lane and
that a request without a lane tries the rails (log 41), that HVGOOD may stand high already (log 68), and the limit of 200 Ω
(log 58) are the model's readings. -/
def Obligations.LanesAreGrantedInOrder : Prop :=
  ∀ (s : State) (ohms : Nat), (∀ b ∈ s.settling, s.blockIdle b.1 b.2 = true) →
    ((∀ k : Fin 64, (s.board.lanes[k]).st ≠ .free) → s.board.rails ≠ .off → exec (.laneGrant ohms) s = .next s)
    ∧ ((∀ k : Fin 64, (s.board.lanes[k]).st ≠ .free) → s.board.rails = .off → s.laneWaiters ≠ [] → s.mayStart = true →
        s.railsAllow = true → s.boardSize.isSome = true → 2 ≤ s.store.journalPages → (∀ x ∈ s.desks.jobs, x.st ≠ .writing) →
        (ohms ≤ 200 → Gives (.laneGrant ohms) s (Settles { s with
          board := { s.board with rails := if s.setup.hvsrc && !s.pins.hvgood then .waitGood else .enabling
                                  hvenAt := s.clock.uptime, freeSince := none }
          mode := if s.mode = .quiet then .active else s.mode }))
        ∧ (200 < ohms → Gives (.laneGrant ohms) s fun t => t.board.rails = .off ∧ t.board.loopOpen = true
            ∧ t.board.lanes = s.board.lanes
            ∧ (s.recallsRest = true → (t.desk.sources[srcBoardLoop]).counter
                = min 255 ((s.desk.sources[srcBoardLoop]).counter + 1))))
    ∧ (s.laneWaiters = [] → exec (.laneGrant ohms) s = .next s)
    ∧ ((s.start.rotated = false ∨ s.boardSize = none ∨ s.store.journalPages < 2) → exec (.laneGrant ohms) s = .next s)
    ∧ (∀ (pre post : List Job) (j : Job) (p : Part) (l : Fin 64), s.mayStart = true → s.railsAllow = true →
        s.boardSize.isSome = true → 2 ≤ s.store.journalPages → (∀ x ∈ s.desks.jobs, x.st ≠ .writing ∧ x.isCleaning = false) →
        s.inOrder = pre ++ j :: post → (∀ x ∈ pre, x.laneParts = [] ∨ s.stagedWait x = true) → s.stagedWait j = false →
        s.desks.jobs.filter (·.id = j.id) = [j] → (j.kind = .letter ∨ ∃ tile, j.kind = .render tile) →
        p ∈ j.laneParts → (∀ q ∈ j.laneParts, p.rect.raster q.rect = true ∧ (q.rect.raster p.rect = true → q = p)) →
        (s.board.lanes[l]).st = .free → (∀ k : Fin 64, k < l → (s.board.lanes[k]).st ≠ .free) →
        let lane : Lane := { Lane.empty with
          st := if j.tag ≠ 0 ∧ (j.released = false ∨ j.earmark = none) then .staged else .armed
          job := j.id, rect := p.rect, got := List.replicate p.rect.height 0, prev := List.replicate p.rect.height 0
          modeFrames := (s.modeLen j.mode).getD 0, stagedSince := s.clock.uptime, round := p.round }
        let u := { s.setJob j.id (fun x => x.partLaned p.round l) with
          board := { s.board with lanes := s.board.lanes.set l lane, freeSince := none }
          mode := if s.mode = .quiet then .active else s.mode }
        (s.board.rails ≠ .off → Gives (.laneGrant ohms) s (Settles u))
        ∧ (s.board.rails = .off → ohms ≤ 200 → Gives (.laneGrant ohms) s (Settles { u with board := { u.board with
            rails := if s.setup.hvsrc && !s.pins.hvgood then .waitGood else .enabling, hvenAt := s.clock.uptime } }))
        ∧ (s.board.rails = .off → 200 < ohms → Gives (.laneGrant ohms) s fun t => t.board.rails = .off
            ∧ t.board.loopOpen = true ∧ t.board.lanes = u.board.lanes
            ∧ (s.recallsRest = true → (t.desk.sources[srcBoardLoop]).counter
                = min 255 ((s.desk.sources[srcBoardLoop]).counter + 1))))
    ∧ (∀ (j : Job) (rest : List Job) (p : Part) (l : Fin 64), s.mayStart = true → s.railsAllow = true → s.board.rails ≠ .off →
        s.boardSize.isSome = true → 2 ≤ s.store.journalPages → (∀ x ∈ s.desks.jobs, x.st ≠ .writing) → j.tag = 0 →
        s.desks.jobs.filter (·.id = j.id) = [j] → j.laneParts = [p] →
        (s.board.lanes[l]).st = .free → (∀ k : Fin 64, k < l → (s.board.lanes[k]).st ≠ .free) →
        let granted := fun (frames : Nat) (blocks : List (Nat × Nat)) =>
          { s.setJob j.id (fun x => x.partLaned p.round l) with
            board := { s.board with freeSince := none, lanes := s.board.lanes.set l { Lane.empty with
              st := .armed, job := j.id, rect := p.rect, got := List.replicate p.rect.height 0
              prev := List.replicate p.rect.height 0, modeFrames := frames, stagedSince := s.clock.uptime, round := p.round } }
            settling := blocks, mode := if s.mode = .quiet then .active else s.mode }
        (∀ i, j.kind = .cleaning i → s.desks.jobs.filter Job.isCleaning = j :: rest →
          (∀ k : Fin 64, (s.board.lanes[k]).st ≠ .free → (s.board.lanes[k]).rect.overlaps p.rect = false) →
          (∀ x ∈ s.desks.jobs, x.isCleaning = false → ∀ q ∈ x.parts, q.rect.overlaps p.rect = false) →
          Gives (.laneGrant ohms) s (Settles (granted ((s.modeLen 15).getD 0) s.settling)))
        ∧ (∀ c r, j.kind = .settling c r → s.desks.jobs.filter Job.isSettling = j :: rest →
          (∀ x ∈ s.desks.jobs, x.isCleaning = false) → (∀ x ∈ s.inOrder, x.laneParts = []) →
          (s.maySettle = true → Gives (.laneGrant ohms) s (Settles (granted 0 (s.settling.filter (· ≠ (c, r))))))
          ∧ ((s.board.freeCount < 8 ∨ s.cleaningOwed = true ∨ ∃ x ∈ s.inOrder, ∃ q ∈ x.parts, q.st = .waiting) →
              exec (.laneGrant ohms) s = .next s)))
    ∧ ((∀ x ∈ s.desks.jobs, x.isCleaning = true ∧ ∀ p ∈ x.laneParts, ∃ k : Fin 64, (s.board.lanes[k]).st ≠ .free
          ∧ (s.board.lanes[k]).rect.overlaps p.rect = true) → s.desks.order = [] →
        exec (.laneGrant ohms) s = .next s)

/-- R340, R342, R346, R350 to R352, R354, R374, R405, R409, R411, R414, R415, R420, R423, R425, R445: in a panel frame every row
of a RUNNING or TAIL lane with a frame still to receive is driven, and no other; the counts of the driven rows go up by
one, and the lane is TAIL after its last mode frame and CLOSING after its last. No held earmark rises, the planes and the
ledger stay. An ARMED lane starts with the latest rotation, as many mode frames as its mode has in the set in force, a tail
when a pixel of it takes one, and its first frame;
BAND_CLAMPED when cells lie outside the set, SETTLING for a settling round. The panel link carries for a pixel the code of
the round that drives it, 0b00 under none, pixel 8j + k in bits 2k and 2k + 1 of word j. Without rails, the PLL, a board
for the ARMED lanes or a lane to drive there is no frame. A plane word that the frame cannot correct leaves the pixels of
running rounds under it at 0b00 (R622); the rest is said where no word that the frame reads has been found damaged (log 80).
That a whole panel frame is one command (log 53), and that ARMED lanes start also after the board loop has opened, while the
rails are on (log 41), are the model's choices. -/
def Obligations.PanelFramesDriveRounds : Prop :=
  ∀ (s : State), (s.board.rails ≠ .on ∨ s.clock.src ≠ .pll ∨ ((∀ k : Fin 64, (s.board.lanes[k]).st ≠ .running
        ∧ (s.board.lanes[k]).st ≠ .tail ∧ (s.board.lanes[k]).st ≠ .armed)) →
      ∀ found, exec (.panelFrameStart found) s = .next s)
    ∧ (s.boardSize = none → (∀ k : Fin 64, (s.board.lanes[k]).st ≠ .running ∧ (s.board.lanes[k]).st ≠ .tail) →
      ∀ found, exec (.panelFrameStart found) s = .next s)
    ∧ (s.awake = true → s.shutting = false → s.clock.src = .pll → s.board.rails = .on →
      s.store.intact (s.frameReads s.starting) = true →
      (∀ j ∈ s.desks.jobs, j.letterKind = some .release → j.released = false) →
      let framed := fun (l : Lane) => l.st = .running ∨ l.st = .tail
      let left := fun (l : Lane) (y : Nat) => decide (framed l ∧ l.rect.y0 ≤ y ∧ y ≤ l.rect.y1
        ∧ l.got.getD (y - l.rect.y0) 0 < l.modeFrames + l.tailFrames)
      let driven := fun (l : Lane) =>
        let got := l.got.map fun g => if g < l.modeFrames + l.tailFrames then g + 1 else g
        { l with prev := l.got, got := got
                 st := if got.all (l.modeFrames + l.tailFrames ≤ ·) then .closing
                       else if got.all (l.modeFrames ≤ ·) then .tail else .running }
      let height := (s.boardSize.getD (0, 0)).2
      ((∀ k : Fin 64, (s.board.lanes[k]).st ≠ .armed ∧ (framed s.board.lanes[k] → (s.board.lanes[k]).got ≠ [])) →
        (∃ k : Fin 64, framed s.board.lanes[k]) → Gives (.panelFrameStart ⟨[], []⟩) s fun t =>
          (∀ k : Fin 64, t.board.lanes[k] = if framed s.board.lanes[k] then driven s.board.lanes[k]
            else if (s.board.lanes[k]).st = .closing then { s.board.lanes[k] with prev := (s.board.lanes[k]).got }
            else s.board.lanes[k])
          ∧ ((∀ k : Fin 64, framed s.board.lanes[k] → (s.board.lanes[k]).got.length = (s.board.lanes[k]).rect.height
                ∧ (s.board.lanes[k]).rect.x0 ≤ (s.board.lanes[k]).rect.x1) →
              ∀ y, t.drivenRow y = s.board.lanes.toList.any fun l => left l y)
          ∧ t.board.frames = s.board.frames + 1 ∧ t.board.framing = true
          ∧ t.board.driven = ((List.range height).filter fun y => s.board.lanes.toList.any fun l => left l y).length
          ∧ t.board.skipped = height - t.board.driven
          ∧ (∃ b st js, Settles { s with board := b, store := st, desks := { s.desks with jobs := js } } t
              ∧ js.map (fun j => { j with earmark := none }) = s.desks.jobs.map (fun j => { j with earmark := none })
              ∧ (∀ j ∈ js, ∀ e, j.earmark = some e → ∃ i ∈ s.desks.jobs, i.id = j.id
                  ∧ ∃ d, i.earmark = some d ∧ e.held ≤ d.held ∧ e.xheld ≤ d.xheld))
          ∧ (s.recallsRest = true → s.store.plain 0 = true → ∀ a < boxBase, t.store.read a = s.store.read a))
      ∧ (∀ (i : Fin 64) (j : Job), (s.board.lanes[i]).st = .armed → s.boardSize.isSome = true →
        s.desks.jobs.filter (·.id = (s.board.lanes[i]).job) = [j] →
        (∀ k : Fin 64, k ≠ i → (s.board.lanes[k]).st = .free ∨ (s.board.lanes[k]).st = .staged) →
        j.earmark.isSome = true → (s.board.lanes[i]).got ≠ [] → (∀ g ∈ (s.board.lanes[i]).got, g = 0) →
        let l := s.board.lanes[i]
        let m := { l with temps := s.latestRotation, modeFrames := (s.modeLen j.mode).getD l.modeFrames }
        (∀ c r, j.kind = .settling c r → s.outsideSet l.rect = none →
          Gives (.panelFrameStart ⟨[], []⟩) s fun t =>
            t.board.lanes[i] = driven { m with st := .tail, modeFrames := 0, tailFrames := s.tailLen }
            ∧ (∀ k : Fin 64, k ≠ i → t.board.lanes[k] = s.board.lanes[k]) ∧ t.board.frames = s.board.frames + 1
            ∧ (s.recallsRest = true → (t.desk.sources[srcSettling]).detail = BitVec.ofNat 32 (c + 256 * r)))
        ∧ ((j.kind = .letter ∨ ∃ tile, j.kind = .render tile) → 0 < m.modeFrames →
          Gives (.panelFrameStart ⟨[], []⟩) s fun t =>
            t.board.lanes[i] = driven { m with st := .running
                                               tailFrames := if (s.laneRound m).anyTail s.store l.rect then s.tailLen else 0 }
            ∧ (∀ k : Fin 64, k ≠ i → t.board.lanes[k] = s.board.lanes[k]) ∧ t.board.frames = s.board.frames + 1
            ∧ (s.recallsRest = true → ∀ x, s.outsideSet l.rect = some x →
                (t.desk.sources[srcBandClamped]).detail = BitVec.ofNat 32 (wholeDegrees x))
            ∧ (s.recallsRest = true → s.store.plain 0 = true → ∀ a < boxBase, t.store.read a = s.store.read a))))
    ∧ (∀ (o x y : Nat) (k : Fin 64) (w : Rect), s.mayFrame = true → s.store.unread = ⟨[], []⟩ →
        (s.board.lanes[k]).st.framed = true → (s.board.lanes[k]).rect.contains x y = true →
        (regionCode o = 1 ∨ regionCode o = 2) → s.store.served o = o → wordRect o = some w → w.contains x y = true →
        Gives (.panelFrameStart ⟨[o], []⟩) s fun t => t.board.frames = s.board.frames + 1 ∧ t.linkCode x y = 0)
    ∧ (∀ (code : Nat → BitVec 2) (j k : Nat), k < 8 → (sdWord code j).extractLsb' (2 * k) 2 = code (8 * j + k))
    ∧ (∀ x y, (s.board.framing = false ∨ s.board.blank = true ∨ ∀ k : Fin 64, (s.board.lanes[k]).drives x y = false) →
        s.linkCode x y = 0)
    ∧ (∀ x y (k : Fin 64), s.board.framing = true → s.board.blank = false → (s.board.lanes[k]).drives x y = true →
        (∀ i : Fin 64, i ≠ k → (s.board.lanes[i]).drives x y = false) → s.store.frozen x y = false →
        (s.board.lanes[k]).dropped = [] → s.linkCode x y = (s.laneRound s.board.lanes[k]).code s.store x y
          ((s.board.lanes[k]).got.getD (y - (s.board.lanes[k]).rect.y0) 0))

/-- R297, R412, R413, R420, R425, R630, R632, Tables 9.7 and 15.3: the write-back of a CLOSING lane frees it, adds the net
drive of its frames to the ledger of every pixel of its rectangle, saturated to -127 and 127, and makes the shown plane there
the target plane, but not for a settling round; nothing else of the planes and the ledger changes. With its last part a POST
comes to its outcome, and with the last round of its target a recall completes. When no round runs any more, a set that has
lost a word becomes invalid. The frames that a pixel had before its plane word was lost count as they were driven, whatever
the planes hold since (R412). The end of a remap copy enters it in both copies of the table and moves accesses to the spare
page, which holds the same octets. Both are said where no word that they read has been found damaged (log 80). -/
def Obligations.RoundsAreWrittenBack : Prop :=
  ∀ (s : State), s.awake = true → s.discharging = false →
    (∀ (i : Fin 64), (s.board.lanes[i]).st ≠ .closing → exec (.roundWriteBackEnd i) s = .next s)
    ∧ (∀ (i : Fin 64) (j : Job), (s.board.lanes[i]).st = .closing →
        s.store.intact (s.writeBackReads (s.board.lanes[i]).rect) = true →
        s.desks.jobs.filter (·.id = (s.board.lanes[i]).job) = [j] →
        let l := s.board.lanes[i]
        let settles := ∃ c r, j.kind = .settling c r
        let booked := fun (x y : Nat) => s.store.ledger x y + (s.laneRound l).netTo s.store x y (l.frames x y)
        let runsOn := ∃ k : Fin 64, k ≠ i ∧ (s.board.lanes[k]).st.started = true
        let keeps := s.waves.spoilt = false ∨ runsOn
        let last := ∀ p ∈ j.parts, p.st = .laned i ∨ p.st = .done
        Gives (.roundWriteBackEnd i) s fun t => t.board.lanes[i] = Lane.empty
          ∧ (keeps → (∀ k : Fin 64, k ≠ i → t.board.lanes[k] = s.board.lanes[k]) ∧ t.waves = s.waves)
          ∧ (¬ keeps → t.waves.valid = false ∧ t.waves.spoilt = false ∧ (t.desk.sources[srcWavesetInvalid]).counter
              = min 255 ((s.desk.sources[srcWavesetInvalid]).counter + 1))
          ∧ (keeps → s.desks.recalls = [] → s.store.plain 20 = true → l.rect.x1 < 4096 → l.rect.y1 < 3072 →
              ∀ x < 4096, ∀ y < 3072, t.store.pixel targetBase x y = s.store.pixel targetBase x y
              ∧ (l.rect.contains x y = false → t.store.pixel shownBase x y = s.store.pixel shownBase x y
                  ∧ t.store.ledger x y = s.store.ledger x y)
              ∧ (l.rect.contains x y = true → t.store.ledger x y = max (-127) (min 127 (booked x y))
                  ∧ (settles → t.store.pixel shownBase x y = s.store.pixel shownBase x y)
                  ∧ (¬ settles → t.store.pixel shownBase x y = s.store.pixel targetBase x y)))
          ∧ (∀ (n : Tenant) (js : List Nat), keeps → last → s.desks.recalls = [(n, js)] → j.kind = .letter →
              j.tenant = some n →
              (∀ x ∈ s.desks.jobs, x.tenant = some n → x.id ≠ j.id → x.started = false ∨ x.outcome.isSome = true) →
              t.desks.recalls = [] ∧ (t.desks.standing[n]).fault = .healthy ∧ (t.desks.standing[n]).strikes = 0
              ∧ (∀ x ∈ t.openJobs, x.id ≠ j.id ∧ x.id ∉ js)
              ∧ (t.desk.sources[srcRecallDone]).counter = min 255 ((s.desk.sources[srcRecallDone]).counter + 1))
          ∧ (keeps → s.desks.recalls = [] → j.kind = .letter → j.letter.isSome = true → j.outcome = none →
              (last → ∀ x ∈ t.openJobs, x.id ≠ j.id)
              ∧ ((∃ p ∈ j.parts, p.st ≠ .laned i ∧ p.st ≠ .done) → ∃ x ∈ t.openJobs, x.id = j.id
                  ∧ ∀ p ∈ x.parts, p.st ≠ .laned i)))
    ∧ (∀ page spare, s.store.remapping = [(page, spare)] → s.store.remap = [] → s.store.remapStopped = false →
        sparePage ≤ spare → page ≠ spare → (s.store.intact fun off => pageOf (s.store.phys off) = page) = true →
        Gives .remapCopyEnd s fun t => s.recallsRest = true →
          t.store.remap = [(page, spare)] ∧ t.store.remapA = s.store.remapA ++ [(page, spare)]
          ∧ t.store.remapB = s.store.remapB ++ [(page, spare)]
          ∧ (Memory.wf s.store.mem = true → ∀ a < boxBase, t.store.read a = s.store.read a)
          ∧ (∀ a < boxBase, t.store.phys a = if a / 4096 = page then 4096 * spare + a % 4096 else a)
          ∧ (t.desk.sources[srcPageRemapped]).counter = min 255 ((s.desk.sources[srcPageRemapped]).counter + 1))
    ∧ (∀ (i : Fin 64) (r : Rect) (also : List (Fin 64)) (st : Store) (x y k : Nat),
        (s.board.lanes[i]).st.started = true → (s.board.lanes[i]).kept = [] → r.contains x y = true →
        (s.board.lanes[i]).rect.contains x y = true → st.ledger x y = s.store.ledger x y →
        let b := s.dropPixels r also
        (State.laneRound { s with board := b } b.lanes[i]).netTo st x y k
          = (s.laneRound s.board.lanes[i]).netTo s.store x y k)

/-- R366, R370, R372, R375, R376, R379 to R381: a RELEASE waits for its instant and is served in turn. A STAGED round with an
earmark that holds starts with a panel frame at that instant, by a plain RELEASE, or by an all-or-none RELEASE when a WEIGH
of the same tenant that was walked before the RELEASE made the earmark; otherwise an all-or-none RELEASE starts nothing and
is NOT_PERMITTED. A released POST without STAGED lanes is only marked, and no frame is begun; one with STAGED lanes and
without an earmark asks for one, with a notice for each of its rounds, and its lanes stay STAGED. A lane STAGED for 300 s
withdraws its POST, answered DELIVERED with 0 pixels, and its pixels are set back. That the panel frame at the instant is one
command (log 53), and that an all-or-none RELEASE meets the POSTs of every order position (log 79), are the model's choices.
-/
def Obligations.ReleasesStartRounds : Prop :=
  ∀ (s : State) (cut : Option Nat),
    (s.board.releases = [] ∨ s.shutting = true → exec (.releaseInstant cut) s = .next s)
    ∧ (∀ (rel : PendingRelease) (rest : List PendingRelease) (j : Job) (l : Letter), s.awake = true → s.shutting = false →
        s.board.releases = rel :: rest → s.job? rel.job = some j → j.letter = some l → l.kind = some .release →
        let u := { s with board := { s.board with releases := rest } }
        let done := fun (v : State) => (v.setJob j.id fun x => { x with released := true }).conclude j stDelivered 0
        let holds := fun (p : Job) => p.earmark.any fun e => e.expiry.all (s.clock.uptime < ·)
        let weighed := fun (p : Job) => ∃ w, p.earmark.bind (·.weigh) = some (w, l.tenant) ∧ w ∈ rel.weighs
        (∀ p, rel.allOrNone = false → rel.posts = [p.id] → s.job? p.id = some p → p.walked = true → holds p = true →
            (∀ k : Fin 64, (s.board.lanes[k]).st = .staged → (s.board.lanes[k]).job ≠ p.id) → s.askers = [] →
            Gives (.releaseInstant cut) s (Settles (done (u.setJob p.id fun x => { x with
              released := true, earmark := x.earmark.map fun e => { e with expiry := none } }))))
        ∧ (∀ p (i : Fin 64), s.job? p.id = some p → p.walked = true → holds p = true → p.kind = .letter →
            (s.board.lanes[i]).st = .staged → (s.board.lanes[i]).job = p.id → (∃ n, s.modeLen p.mode = some n ∧ 0 < n) →
            (s.board.lanes[i]).got ≠ [] → (∀ g ∈ (s.board.lanes[i]).got, g = 0) →
            (∀ k : Fin 64, k ≠ i → (s.board.lanes[k]).st = .free) → s.board.framing = false → s.board.rails = .on →
            s.boardSize.isSome = true → s.clock.src = .pll →
            ((rel.allOrNone = false ∧ rel.posts = [p.id])
              ∨ (rel.allOrNone = true ∧ s.allOrNonePosts l.tenant (relTag l.body) = [p] ∧ weighed p)) →
            Gives (.releaseInstant cut) s fun t => t.board.frames = s.board.frames + 1
              ∧ ((t.board.lanes[i]).st = .running ∨ (t.board.lanes[i]).st = .tail ∨ (t.board.lanes[i]).st = .closing)
              ∧ (∀ g ∈ (t.board.lanes[i]).got, g = 1) ∧ (t.board.lanes[i]).rect = (s.board.lanes[i]).rect
              ∧ (∀ k : Fin 64, k ≠ i → t.board.lanes[k] = s.board.lanes[k]))
        ∧ (∀ p, rel.allOrNone = false → rel.posts = [p.id] → s.job? p.id = some p → p.walked = true → p.earmark = none →
            p.asked = none → p.id ≠ j.id → (∃ k : Fin 64, (s.board.lanes[k]).st = .staged ∧ (s.board.lanes[k]).job = p.id) →
            s.boardDisabled = false → s.freshWeigh = false → s.energy.weighing = false → s.mayWeigh = true →
            s.desks.recalls = [] → Gives (.releaseInstant cut) s fun t =>
              t.board.lanes = s.board.lanes ∧ t.board.frames = s.board.frames ∧ t.energy.weighing = true
              ∧ (∃ x ∈ t.desks.jobs, x.id = p.id ∧ x.released = true ∧ x.asked = some s.energy.nextAsk)
              ∧ (∀ x ∈ t.openJobs, x.id ≠ j.id)
              ∧ (s.countersFit → (t.desk.sources[srcReleaseUnearmarked]).counter
                  = min 255 ((s.desk.sources[srcReleaseUnearmarked]).counter + ((List.finRange 64).filter fun k =>
                      (s.board.lanes[k]).st = .staged && (s.board.lanes[k]).job = p.id).length)))
        ∧ (rel.allOrNone = true → s.allOrNonePosts l.tenant (relTag l.body) = [] →
            Gives (.releaseInstant cut) s (Settles (done u)))
        ∧ (∀ p, rel.allOrNone = true → p ∈ s.allOrNonePosts l.tenant (relTag l.body) →
            (holds p = false ∨ ¬ weighed p) → Gives (.releaseInstant cut) s
              (Settles ((u.conclude j stNotPermitted 0).notice srcAllOrNoneRefused (relTag l.body + 65536 * l.tenant.val)))))
    ∧ (∀ (i : Fin 64) (j : Job), (s.board.lanes[i]).st = .staged → s.desks.jobs.filter (·.id = (s.board.lanes[i]).job) = [j] →
        s.awake = true → s.shutting = false → s.unstartedStage j = true →
        ((s.board.lanes[i]).stagedSince + 300000 ≤ s.clock.uptime → Gives (.stageExpiry i) s fun t =>
          Settles ((s.withdrawStaged j stDelivered 0).notice srcStageExpired j.tagDetail) t
          ∧ (∀ k : Fin 64, t.board.lanes[k] = if (s.board.lanes[k]).st ≠ .free ∧ (s.board.lanes[k]).job = j.id
              then Lane.empty else s.board.lanes[k])
          ∧ (s.desks.recalls = [] → s.store.plain (10 * j.parts.length + 20) = true →
              (∀ p ∈ j.parts, p.rect.x1 < 4096 ∧ p.rect.y1 < 3072) → ∀ x < 4096, ∀ y < 3072,
              t.store.pixel targetBase x y =
                if j.parts.any (fun p => p.st ≠ .waiting && p.st ≠ .copying && p.rect.contains x y)
                then s.store.pixel shownBase x y else s.store.pixel targetBase x y))
        ∧ (s.clock.uptime < (s.board.lanes[i]).stagedSince + 300000 → exec (.stageExpiry i) s = .next s))

/-! ## Temperatures, readback, waveform sets -/

/-- R64, R396, R398 to R400, R407, R492, R522, R584, R609, R681: a rotation's values come into use at its end, in WATCH
too. An input that gives no temperature has failed, and its grid point, with no sound neighbour, takes the die's value;
each input that fails or recovers raises THERMISTOR. V_LCD follows the die. The first rotation of a boot makes every
tile's render pending. No rotation ends before its second is over. A Deferred POST asks again once its pixels all lie
inside the set, on the limp clock too. -/
def Obligations.RotationsAreUsed : Prop :=
  ∀ (s : State) (counts : Vector (BitVec 12) 16) (die : Int), s.clock.running = true →
    s.rotationAt + 1000 ≤ s.clock.uptime →
    let grid := if s.setup.known 8 then s.setup.code 8 else 0
    let cols := gridCols grid
    let rows := gridRows grid
    let raw := (List.range (cols * rows)).map fun k => ntcTemp (gridB grid) (counts.toList.getD k 0).toNat
    ((s.awake = true ∨ s.mode = .watch) → Gives (.rotationEnd counts die) s fun t => ∃ r : Rotation,
      t.rotation = some r ∧ r.cols = cols ∧ r.rows = rows ∧ r.die = die ∧ r.grid.length = cols * rows
      ∧ (∀ (k : Nat) (v : Int), raw[k]? = some (some v) → r.grid[k]? = some v)
      ∧ (∀ k : Nat, raw[k]? = some none → (∀ (i : Nat) (v : Int), raw[i]? = some (some v) →
            i + 1 ≠ k ∧ i ≠ k + 1 ∧ i + cols ≠ k ∧ i ≠ k + cols) →
          r.grid[k]? = some (die * (12 * 2 ^ 156)))
      ∧ (∀ k : Nat, t.thFailed.getLsbD k = decide (k < 16 ∧ raw[k]? = some none))
      ∧ t.dieTemp = die ∧ t.start.rotated = true
      ∧ (∀ a b : Nat, s.setup.live[4] = some a → 26000 ≤ a → a ≤ 52000 → s.setup.live[5] = some b → b ≤ 100000 →
          t.stamp.vlcd = max (2600 * 80000) (min (5200 * 80000) (8000 * (a : Int) - b * (die - 400))))
      ∧ (s.recallsRest = true → s.countersFit → (t.desk.sources[srcThermistor]).counter = min 255
          ((s.desk.sources[srcThermistor]).counter
            + ((List.range 16).filter fun k => t.thFailed.getLsbD k ≠ s.thFailed.getLsbD k).length))
      ∧ (s.start.rotated = false → s.drawsTiles = true → (∀ j ∈ s.desks.jobs, j.st ≠ .deferred) →
          ∀ x ∈ s.tiles, (t.renders[tileRender x.1]).pending = true)
      ∧ ((∀ j ∈ s.desks.jobs, j.st ≠ .deferred) → Settles { s with
          rotation := some r, rotationAt := s.rotationAt + 1000, thFailed := t.thFailed, dieTemp := die
          start := { s.start with rotated := true }
          stamp := { s.stamp with vlcd := t.stamp.vlcd }, desk := { s.desk with sources := t.desk.sources } } t)
      ∧ (∀ j q, s.desks.jobs = [j] → j.isPost = true → j.st = .deferred → j.asked = none → j.rect = some q →
          s.awake = true → s.shutting = false → s.barred = false → s.boardSize.isSome = true → s.boardDisabled = false →
          s.freshWeigh = false → s.recallsRest = true → j.outcome = none →
          ((({ s with rotation := some r, dieTemp := die } : State).outsideSet q).isSome = true → t.openJobs = [j])
          ∧ ((({ s with rotation := some r, dieTemp := die } : State).outsideSet q) = none → ∃ x, t.openJobs = [x]
              ∧ x.id = j.id ∧ x.st = .orderWait ∧ x.asked = some s.energy.nextAsk)))
    ∧ (s.awake = false → s.mode ≠ .watch → exec (.rotationEnd counts die) s = .next s)
    ∧ (∀ u : State, u.clock.uptime < u.rotationAt + 1000 → exec (.rotationEnd counts die) u = .next u)

/-- R329, R331 to R333, R335 to R339, Table 6.22: a PEEK is answered with the pixels or the ledger of its rectangle as
the store holds them after what the reading of it found, its own BOX to H again, and the number of its pixels under
running rounds; while an earlier POST of the same tenant has pixels in the rectangle still to copy, it waits. That
an unwalked earlier POST is waited for by the box as it stands is the model's reading (log 52). -/
def Obligations.PeeksAreAnswered : Prop :=
  ∀ (s : State) (i : Nat) (j : Job) (l : Letter) (r : Rect), s.judges = true → s.job? i = some j → j.letter = some l →
    l.kind = some .peek → j.rect = some r → j.st = .pendingEffect →
    (s.peekWaits j r = true → ∀ found, exec (.peekSnapshot i found) s = .next s)
    ∧ (∀ found, s.peekWaits j r = false →
      let u := s.takeFindings false [] (peekReads (octet l.body 0).toNat r) found
      let motion := (r.pixels.filter fun p => u.board.lanes.toList.any fun x =>
        (x.st = .running || x.st = .tail || x.st = .paused || x.st = .closing) && x.rect.contains p.1 p.2).length
      let plane := (octet l.body 0).toNat
      Gives (.peekSnapshot i found) s fun t => ∃ data : List Byte,
        Settles (u.answer j kAnswer (u.postmark ++ leBytes plane 1 ++ [if motion = 0 then 0 else 1, 0, 0, 0]
          ++ leBytes motion 4 ++ (l.body.drop 4).take 8 ++ data) false) t
        ∧ (plane = 2 → data.length = r.width * r.height ∧ ∀ x y, r.contains x y = true →
            data[(y - r.y0) * r.width + (x - r.x0)]? = some (BitVec.ofInt 8 (u.store.ledger x y)))
        ∧ (plane ≠ 2 → data.length = (r.width + 1) / 2 * r.height ∧ ∀ x y, r.contains x y = true →
            (data[(y - r.y0) * ((r.width + 1) / 2) + (x - r.x0) / 2]?).map (fun (b : Byte) =>
              if (x - r.x0) % 2 = 0 then b.setWidth 4 else (b >>> 4).setWidth 4)
            = some (u.store.pixel (if plane = 0 then targetBase else shownBase) x y)))

/-- R385, R390, R392 to R395, R635: a WAVESET waits for earlier POSTs and for every lane to be FREE; its writing makes the
store's set invalid and the WAVESET ACCEPTED, and writes no octet yet: the ROM set of the class is in force meanwhile, and
none under PCLASS 14. Once the read-back matches, the store holds the parcel, a valid set, in force unless its link timing or
board differs from the set in force before, when it waits for the next cold start; WAVESET_INSTALLED says so and the WAVESET
has its outcome. That the set is invalid from the start of the writing on, with the octets as they were until its end, is the
model's reading (log 31), and so is the size of a board of PCLASS 14 (log 73). With a page of the waveform store retired
meanwhile it is NOT_PERMITTED, nothing is written, a sound set stays valid, and the set that was in force is again. A
read-back that does not match changes nothing, which is the model's choice (log 32). -/
def Obligations.WavesetsAreInstalled : Prop :=
  ∀ (s : State), s.awake = true → s.shutting = false →
    (∀ j, s.waveset .pendingEffect = some j → s.waveset .writing = none →
      ((∃ k : Fin 64, (s.board.lanes[k]).st ≠ .free) ∨ (∃ x ∈ s.desks.jobs, x.isPost = true ∧ x.outcome = none
          ∧ s.desks.before x.id j.id = true) → exec .wavesetInstallStart s = .next s)
      ∧ ((∀ k : Fin 64, (s.board.lanes[k]).st = .free) →
          (∀ x ∈ s.desks.jobs, x.isPost = true → x.outcome = none → s.desks.before x.id j.id = false) →
          (s.store.waveRetired = false → Gives .wavesetInstallStart s
            fun t => ∃ w, Settles (({ s with waves := { s.waves with
                inForce := w, before := s.waves.inForce, valid := false } }.setJob j.id fun x =>
              { x with st := .writing }).progress j stAccepted 0) t
              ∧ (s.setup.known 4 = true → ∀ h : s.pclass < 14, w = .rom ⟨s.pclass, h⟩)
              ∧ (s.setup.known 4 = false ∨ 14 ≤ s.pclass → w = .none))
          ∧ (s.store.waveRetired = true → Gives .wavesetInstallStart s (Settles (s.conclude j stNotPermitted 0)))))
    ∧ (exec (.wavesetReadbackEnd false) s = .next s)
    ∧ (∀ j l, s.waveset .writing = some j → j.letter = some l → s.store.waveRetired = true →
      Gives (.wavesetReadbackEnd true) s (Settles
        ({ s with waves := { s.waves with inForce := s.waves.before, valid := s.store.waveSound } }.conclude j
          stNotPermitted 0)))
    ∧ (∀ j l, s.waveset .writing = some j → j.letter = some l → s.store.waveRetired = false →
      let p := l.body
      let w := s.waves.before
      let q := s.store.parcel
      let differs := decide (w ≠ .none ∧ (setSdck .store p ≠ setSdck w q ∨ setFrame .store p ≠ setFrame w q
        ∨ (s.pclass = 14 ∧ (wsWidth q ≠ wsWidth p ∨ wsHeight q ≠ wsHeight p))))
      Gives (.wavesetReadbackEnd true) s fun t => t.waves.valid = true ∧ t.waves.deferred = differs
        ∧ t.waves.spoilt = false
        ∧ (s.setup.known 4 = true → s.pclass < 15 → leNat p 8 4 = p.length → 12 ≤ p.length →
            s.store.plain 10 = true → p.length ≤ 2097152 →
            (differs = false → (s.pclass = 14 ∨ (wsWidth p = classWidth s.pclass ∧ wsHeight p = classHeight s.pclass)) →
              t.waves.inForce = .store)
            ∧ (differs = true → (∀ h : s.pclass < 14, t.waves.inForce = .rom ⟨s.pclass, h⟩)
                ∧ (s.pclass = 14 → t.waves.inForce = .none)))
        ∧ (s.desks.recalls = [] → s.store.plain 10 = true → ∀ (k : Nat) (b : Byte), p[k]? = some b → k < 2097152 →
            t.store.read (waveBase + k) = b)
        ∧ (s.desks.recalls = [] → (t.desk.sources[srcWavesetInstalled]).detail
            = BitVec.ofNat 32 (wsSetId p + 65536 * (if differs then 1 else 0)))
        ∧ (s.desks.recalls = [] → ∀ x ∈ t.openJobs, x.id ≠ j.id))

/-! ## Deadlines, stamp, notices, TAP -/

/-- R284, R285, R288, R291, R486, R487: at its deadline a stored reading is stale and STALE is raised, waking a node in WATCH
to ACTIVE; a reading of an earlier boot counts from the cold start, in fuse mode too. A caution period ends HEALTHY without
strikes, a suspension CAUTIONED for 60 s without strikes, each with FAULT_STATE. Before the time nothing happens. The wake to
ACTIVE, and an earlier boot's reading, are read as logs 38 and 60 say. -/
def Obligations.TenantTimesRunOut : Prop :=
  ∀ (s : State) (t : Tenant), s.counts = true →
    (∀ r, s.store.readings[t] = some r → s.mode ≠ .coldStart → r.stale = false →
      let deadline := r.time.getD 0 + 1000 * (3 * rdInterval r.body * s.staleMult)
      (deadline ≤ s.clock.uptime → Gives (.stalenessDeadline t) s fun z =>
        Settles ((s.notice srcStale t.val).wake .active) z ∧ z.store.readings[t] = some { r with stale := true }
        ∧ ∀ u : Tenant, u ≠ t → z.store.readings[u] = s.store.readings[u])
      ∧ (s.clock.uptime < deadline → exec (.stalenessDeadline t) s = .next s))
    ∧ (s.store.readings[t] = none → exec (.stalenessDeadline t) s = .next s)
    ∧ (∀ e, (s.desks.standing[t]).fault = .cautioned → (s.desks.standing[t]).cautionEnd = some e →
      (e ≤ s.clock.uptime → Gives (.cautionPeriodEnd t) s (Settles ((s.setStanding t { s.desks.standing[t] with
          fault := .healthy, strikes := 0, cautionEnd := none }).notice srcFaultState t.val)))
      ∧ (s.clock.uptime < e → exec (.cautionPeriodEnd t) s = .next s))
    ∧ (∀ e, (s.desks.standing[t]).fault = .suspended → (s.desks.standing[t]).suspensionEnd = some e →
      (e ≤ s.clock.uptime → Gives (.suspensionEnd t) s (Settles ((s.setStanding t { s.desks.standing[t] with
          fault := .cautioned, strikes := 0, suspensionEnd := none
          cautionEnd := some (s.clock.uptime + 60000) }).notice srcFaultState (t.val + 256))))
      ∧ (s.clock.uptime < e → exec (.suspensionEnd t) s = .next s))

/-- R64, R78, R505, R515 to R517, R521 to R524, Table 14.6: the stamp is driven once the fuses are read, with V_LCD of the
die. Its field is brought up to date once in each second of uptime: a "U" code, in fuse mode too (02_straps.md, "FUSEEN reads
1 while a coded strap is ambiguous"), dashes while no code applies and no reading counts, else the whole minutes since the
oldest one. A segment falls back when its LIFE has passed, with STAMP_FALLBACK. The system rows are due when a field of
theirs has changed, 60 s after the render before. In DOZE only V_LCD follows the sensor. Over a stamp frame a lit segment
sees V_LCD and an unlit one a third of it at its own common, both ways in turn, and a third at the others; every pin of a
blanked stamp is at VSS. -/
def Obligations.TheStampAndItsRows : Prop :=
  ∀ (s : State),
    (s.start.fused = true → s.stamp.driven = false → Gives .stampDriveStart s fun t => t.stamp.driven = true
      ∧ t.stamp.field = s.fieldNow ∧ Settles { s with stamp := { s.stamp with
          driven := true, field := t.stamp.field, vlcd := t.stamp.vlcd } } t
      ∧ (∀ a b : Nat, s.setup.live[4] = some a → 26000 ≤ a → a ≤ 52000 → s.setup.live[5] = some b → b ≤ 100000 →
          t.stamp.vlcd = max (2600 * 80000) (min (5200 * 80000) (8000 * (a : Int) - b * (s.dieTemp - 400)))))
    ∧ (s.counts = true → s.stamp.driven = true → s.stamp.fieldSecond ≠ some (s.clock.uptime / 1000) →
      ∃ f, exec .stampFieldUpdate s
        = .next { s with stamp := { s.stamp with field := f, fieldSecond := some (s.clock.uptime / 1000) } }
      ∧ (∀ k : Fin 13, s.setup.unsorted = true → s.setup.codes[k] = none →
          (∀ i : Fin 13, i < k → s.setup.codes[i].isSome = true) →
          f = #v[0x55, 0x20, digit ((k.val + 1) / 10), digit (k.val + 1)])
      ∧ (s.fieldStatus = none → s.ages = [] → f = #v[0x2D, 0x2D, 0x2D, 0x2D])
      ∧ (∀ a ∈ s.ages, s.fieldStatus = none → (∀ b ∈ s.ages, a ≤ b) →
          let n := min 9999 ((s.clock.uptime - a) / 60000)
          f[3] = digit n ∧ f[2] = (if n < 10 then 0x20 else digit (n / 10))
          ∧ f[1] = (if n < 100 then 0x20 else digit (n / 100)) ∧ f[0] = (if n < 1000 then 0x20 else digit (n / 1000))))
    ∧ (s.stamp.driven = false ∨ s.stamp.fieldSecond = some (s.clock.uptime / 1000) → exec .stampFieldUpdate s = .next s)
    ∧ (∀ (n : Fin 32) (due : Nat) (on : Bool), s.counts = true → s.stamp.fallback[n] = some (due, on) →
      (due ≤ s.clock.uptime → Gives (.stampFallback n) s (Settles ({ s with stamp := { s.stamp with
          segs := s.stamp.segs.set n (if on then 1 else 0), fallback := s.stamp.fallback.set n none } }.notice
            srcStampFallback n.val)))
      ∧ (s.clock.uptime < due → exec (.stampFallback n) s = .next s))
    ∧ (∀ die, s.mode = .doze → ∃ v, exec (.lcdVoltageDoze die) s
        = .next { s with dieTemp := die, stamp := { s.stamp with vlcd := v } }
      ∧ (∀ a b : Nat, s.setup.live[4] = some a → 26000 ≤ a → a ≤ 52000 → s.setup.live[5] = some b → b ≤ 100000 →
          v = max (2600 * 80000) (min (5200 * 80000) (8000 * (a : Int) - b * (die - 400)))))
    ∧ (∀ die, s.mode ≠ .doze → exec (.lcdVoltageDoze die) s = .next s)
    ∧ (∀ at' old, s.awake = true → s.start.quickChecked = true → s.drawsTiles = true → s.idle.systemRowsAt = some at' →
      s.idle.systemRows = some old →
      (at' + 60000 ≤ s.clock.uptime → old ≠ (s.condition, s.clock.uptime / 3600000) → Gives .systemRowsRender s fun t =>
        Settles s t ∧ (t.renders[32]).pending = true)
      ∧ (s.clock.uptime < at' + 60000 ∨ old = (s.condition, s.clock.uptime / 3600000) →
        exec .systemRowsRender s = .next s))
    ∧ (∀ (p : Nat) (q k : Fin 4) (half : Bool), s.mode ≠ .off →
      (s.stampBlank = true → s.comLevel q k half = some 0 ∧ s.segLevel p k half = some 0)
      ∧ (s.stampBlank = false → s.across p q k false + s.across p q k true = 0
          ∧ s.across p q q false = (if s.segment p q then 3 else 1) ∧ (k ≠ q → (s.across p q k half).natAbs = 1)))

/-- R526 to R531, R536, R538, R539, R541, R544 to R547, R550: an event counts up to 255 and sets PENDING, unless the
window of an ACKNOWLEDGE is open. The desk loads the lowest source that can be loaded, COUNT and body as its counter
and latest event stand, marks it in hand, counts the subscriber's NUMBER, and starts the group's hold-off for a
normal-class NOTICE; with no source due it loads none. The re-pend test sets PENDING of the owed sources of a group
whose timer does not run. At the end of a NOTICE's last frame, outside WATCH, its COUNT is subtracted, once, and its
copy on the other channel stays. How far an event had come when another met it is an operand, which is the model's
choice (log 57); further readings are in log 54. -/
def Obligations.NoticesAreLoaded : Prop :=
  ∀ (s : State),
    (∀ (src : Fin 64) (detail : Nat), let x := s.desk.sources[src]
      let y := ((s.notice src detail).desk).sources[src]
      y.counter = (if x.counter < 255 then x.counter + 1 else 255) ∧ y.pending = (x.pending || decide (s.desk.window = 0))
      ∧ y.inHand = x.inHand ∧ y.last = x.last ∧ y.uptime = s.clock.uptime ∧ y.detail = BitVec.ofNat 32 detail
      ∧ ∀ k : Fin 64, k ≠ src → ((s.notice src detail).desk).sources[k] = s.desk.sources[k])
    ∧ ((∀ k : Fin 64, (s.desk.sources[k]).pending = false ∨ (s.desk.sources[k]).inHand = true
        ∨ (s.desk.sources[k]).counter = 0) → exec .noticeLoad s = .next s)
    ∧ (∀ (k : Fin 64) (t : Tenant), s.awake = true → s.shutting = false → s.start.inletsOpen = true →
        s.loadable k = some t → (∀ i : Fin 64, i < k → s.loadable i = none) →
        let x := s.desk.sources[k]
        let sub := s.desk.subs[t]
        Gives .noticeLoad s fun z => (z.desk.sources[k]).inHand = true ∧ (z.desk.sources[k]).last = t
          ∧ (s.recallsRest = true → k ∉ followSources → (s.mustSeal t = false ∨ k ≠ srcCounterEnd) →
              (z.desk.sources[k]).counter = x.counter
              ∧ (z.desk.sources[k]).pending = x.pending)
          ∧ (∃ f ∈ z.desk.flying, f.source = k ∧ f.count = x.counter ∧ f.letter = s.desks.nextOut)
          ∧ (z.desk.subs[t]).sent = sub.sent + 1
          ∧ (∀ u : Tenant, u ≠ t → z.desk.subs[u] = s.desk.subs[u])
          ∧ (∀ g : Fin 8, z.desk.holdOff[g] = if g.val = k.val / 8 ∧ sub.fast.getLsbD k.val = false
              then (if s.holdOffOf t = 0 then none else some (s.clock.uptime + 1000 * s.holdOffOf t))
              else s.desk.holdOff[g])
          ∧ (∀ p, sub.inlet = some (.courier p) → s.mustSeal t = false → ∃ o ∈ (z.port p).generals,
              o.id = s.desks.nextOut ∧ o.octets = leBytes 1 1 ++ leBytes 0 1 ++ leBytes sub.sent.toNat 2 ++ leBytes 20 4
                ++ leBytes x.uptime 6 ++ leBytes x.boot.toNat 4 ++ leBytes (bitOf 0 x.watch) 1 ++ leBytes k.val 1
                ++ leBytes x.counter 1 ++ [0, 0, 0] ++ leBytes x.detail.toNat 4)
          ∧ z.clock = s.clock ∧ z.board.lanes = s.board.lanes ∧ z.setup = s.setup)
    ∧ (∀ g : Fin 8, s.counts = true →
        ((∀ until', s.desk.holdOff[g] = some until' → until' ≤ s.clock.uptime) → Gives (.rependTest g) s fun z =>
          z.desk.holdOff = s.desk.holdOff.set g none ∧ z.desk.subs = s.desk.subs ∧ z.desk.flying = s.desk.flying
          ∧ (s.recallsRest = true → ∀ i : Fin 64, i ∉ followSources → (z.desk.sources[i]).counter = (s.desk.sources[i]).counter
              ∧ (z.desk.sources[i]).pending = ((s.desk.sources[i]).pending || (decide (i.val / 8 = g.val)
                  && !(s.desk.sources[i]).inHand && decide ((s.desk.sources[i]).counter ≠ 0)))))
        ∧ (∀ until', s.desk.holdOff[g] = some until' → s.clock.uptime < until' → exec (.rependTest g) s = .next s))
    ∧ (∀ (c : Chan) (b : TxBuf) (f : Flying), s.shutting = false → (s.chan c).st = .errorActive → (s.chan c).tec ≤ 95 →
        (s.chan c).recErr ≤ 127 → (s.chan c).bufs.find? (fun b => some b.seq = (s.chan c).sending) = some b →
        b.isLast = true → idKind b.ident = kNotice → s.desk.flying.filter (·.letter = b.letter) = [f] →
        s.mode ≠ .watch →
        Gives (.txFrameEnd c) s fun z =>
          (∀ g ∈ z.desk.flying, g.letter = b.letter → g.sent = true
            ∧ (match c with | .a => g.onA | .b => g.onB) = false)
          ∧ ((match c with | .a => f.onB | .b => f.onA) = false → f.port = none → ∀ g ∈ z.desk.flying, g.letter ≠ b.letter)
          ∧ (s.recallsRest = true → f.source ∉ followSources →
              (z.desk.sources[f.source]).counter = (s.desk.sources[f.source]).counter - (if f.sent then 0 else f.count)
              ∧ (z.desk.sources[f.source]).pending = (s.desk.sources[f.source]).pending)
          ∧ z.desk.subs = s.desk.subs ∧ z.clock = s.clock)

/-- R5, R117, R651, Table 13.1: with the test lock in force, by the burned bits, a TAP instruction other than BYPASS,
IDCODE and SAMPLE/PRELOAD is refused with TAP_REFUSED; every other one is taken; without power nothing happens. What
an unpowered TAP keeps is the model's reading (log 55), that the lock is read from the burned bits at every moment its
choice (log 67), and IDCODE in the TAP right after reset IEEE 1149.1's (log 77). -/
def Obligations.TheTestLock : Prop :=
  ∀ (s : State) (op : TapOp) (ir : Byte),
    let locked := lifeOf s.fuses.byte ≠ .blank ∧ tlockReads s.fuses.byte = true ∧ s.pins.resetLow = false
    (s.mode = .off ∨ s.mode = .watch ∨ s.mode = .doze ∨ s.pins.vio = false → exec (.tapInstruction op ir) s = .next s)
    ∧ (s.mode ≠ .off → s.mode ≠ .watch → s.mode ≠ .doze → s.pins.vio = true →
      (locked → op = .other → Gives (.tapInstruction op ir) s (Settles (s.notice srcTapRefused ir.toNat)))
      ∧ ((¬ locked ∨ op ≠ .other) → Gives (.tapInstruction op ir) s fun t =>
          t.tap = op ∧ t.steady = { s with tap := op }.steady ∧ t.desk.sources = s.desk.sources))

/-! ## The whole machine -/

/-- R576 to R578: a step takes the command at the front of the queue and answers what it does with the rest of the
queue. On an empty queue one millisecond of uptime passes where uptime counts (that an empty queue is a millisecond is
the model's choice, log 34), and nothing but the clock, the idle times and the window of an ACKNOWLEDGE moves. -/
def Obligations.StepTakesTheFrontCommand : Prop :=
  ∀ (s : State),
    (∀ c rest, s.pending = c :: rest → step s = exec c { s with pending := rest })
    ∧ (s.pending = [] → ∃ clock quiet watch window, step s = .next { s with
          clock := clock, desk := { s.desk with window := window }, idle := { s.idle with quietMs := quiet, watchMs := watch } }
        ∧ clock.src = s.clock.src ∧ clock.running = s.clock.running
        ∧ clock.uptime = (if s.clock.running = true ∧ s.mode ≠ .off ∧ s.mode ≠ .inReset ∧ s.mode ≠ .doze
            then s.clock.uptime + 1 else s.clock.uptime))

/-- Every command is answered with a next state, one that the machine's state does not admit with the state as it is: the
model's choice (log 1). It leaves the waiting commands alone; and every step keeps the octets
of the store and the fuse array in canonical form, every event counter of the desk within 255 (R527), and every strike
count below three (R286, R289). -/
def Obligations.EveryStepAnswersSoundly : Prop :=
  ∀ (s : State), ∃ t, step s = .next t ∧ t.pending = s.pending.tail
    ∧ (s.canonical = true → t.canonical = true) ∧ (s.countersFit → t.countersFit) ∧ (s.strikesFit → t.strikesFit)

/-- R82, R31, R33, R576, R580, R605: whatever the command, a burned fuse bit stays burned and only the end of a burn changes
the array; latched straps, coded and logic ones, stay until the node is powered down or starts cold; uptime moves at no
command but back to zero, which rests on the model's choice of an empty queue as a millisecond (log 34); and the boot serial
changes only when uptime starts or the straps are known. That a burn in progress is dropped by a reset is the model's choice
(log 66). -/
def Obligations.WhatOnlyFewCommandsChange : Prop :=
  ∀ (c : Instr) (s t : State), exec c s = .next t →
    (s.canonical = true → ∀ a i, s.fuses.bit a i = true → t.fuses.bit a i = true)
    ∧ ((∀ stop, c ≠ .burnEnd stop) → t.fuses.array = s.fuses.array)
    ∧ (s.start.strapped = true → (t.setup.codes = s.setup.codes ∧ t.setup.hvsrc = s.setup.hvsrc
        ∧ t.setup.cpmode = s.setup.cpmode ∧ t.setup.refsel = s.setup.refsel ∧ t.setup.fuseen = s.setup.fuseen)
        ∨ t.start.strapped = false)
    ∧ (t.clock.uptime = s.clock.uptime ∨ t.clock.uptime = 0)
    ∧ (c ≠ .coreSwitchToPll → c ≠ .pllLockTimeout → (∀ read, c ≠ .strapSamplingEnd read) → t.boot = s.boot)

/-- R125, R205, R282, R344, R430, R511, R534, R576, R606, Table 9.7: right after reset the node is at time 0 of its cold
start: uptime 0 and not counting, no flag sinking, both channels in Reset and both ports dead, every tenant HEALTHY
without strikes, no subscription, counter or pending bit, every lane FREE, rails and charger off, both standby outputs
asserted and GDDIR low; its memory and counts are sound. That the first start finds a part as delivered is the model's
choice (log 2). -/
def Obligations.ResetLeavesTheNodeCold : Prop :=
  State.reset.canonical = true ∧ State.reset.countersFit ∧ State.reset.strikesFit
  ∧ State.reset.mode = .coldStart ∧ State.reset.pending = [] ∧ State.reset.clock.uptime = 0
  ∧ State.reset.clock.running = false ∧ (∀ k, State.reset.flagSinks k = false)
  ∧ State.reset.chanA.st = .reset ∧ State.reset.chanB.st = .reset
  ∧ State.reset.portA.live = false ∧ State.reset.portB.live = false
  ∧ (∀ t : Tenant, (State.reset.desks.standing[t]).fault = .healthy ∧ (State.reset.desks.standing[t]).strikes = 0)
  ∧ (∀ t : Tenant, (State.reset.desk.subs[t]).word = 0)
  ∧ (∀ i : Fin 64, (State.reset.desk.sources[i]).counter = 0 ∧ (State.reset.desk.sources[i]).pending = false
      ∧ (State.reset.desk.sources[i]).inHand = false)
  ∧ (∀ k : Fin 64, (State.reset.board.lanes[k]).st = .free) ∧ State.reset.board.rails = .off
  ∧ State.reset.energy.charger = .off ∧ (∀ c, State.reset.standby c = .high) ∧ State.reset.gddir = .low

/-! ## The store: wear, remapping, lost words, recovery -/

/-- R618, R621 to R623, R625 to R630, R632 to R636, Tables 15.3 and 15.4: a page's count advances, by 1 or 10 units, when a
word is written again; it is written 4,096 units on, 4,096 units are added after a collapse, before any count is written, and
at the threshold the page is copied to the lowest free spare, or retired when there is none or no further remap is made. A
retired page is never written. A corrected word is written back. A word that cannot be corrected raises UNCORRECTABLE, takes
the value that its region's line of Table 15.3 gives, and its page is remapped; SPARES_LOW and REGION_DEGRADED follow. Which
of 1 and 10 units the store die's temperature gives is a free value (log 8). That the torn rectangle of a lost shown word
carries tenant 0 and number 0 is the model's choice (log 42). A word that has been found damaged is met by the next command
that reads it, and a write of the word ends the damage; one of the two copies of the boot serial that is met so leaves the
boot the other (R580). That a damaged word stays so until a command reads or writes it is the model's choice (log 80). The
shown, target and ledger words are said outside panel frames, and the journal's region not at all. -/
def Obligations.StoreWearsAndRemaps : Prop :=
  (∀ (st : Store) (page : Nat) (words : List Nat),
    let w := st.wearOf page
    let u := st.wearPage page words
    let v := u.wearOf page
    ((∃ x ∈ words, x ∈ w.touched) → (v.count = w.count + 1 ∨ v.count = w.count + 10) ∧ v.touched = words)
    ∧ ((∀ x ∈ words, x ∉ w.touched) → v.count = w.count ∧ v.touched = w.touched ++ words)
    ∧ v.stored = w.stored ∧ (∀ p, p ≠ page → u.wearOf p = st.wearOf p) ∧ u.mem = st.mem
    ∧ (∀ p < 7424, (st.wearOf p).count + 4096 ≤ (st.addMargin.wearOf p).count)
    ∧ (st.collapsed = true → (∀ p < 7424, (st.wearOf p).count + 4096 ≤ (st.saveAllWear.wearOf p).count)
        ∧ st.saveAllWear.collapsed = false))
  ∧ (∀ (st : Store) (page : Nat), page < 6912 → Memory.wf st.mem = true → st.remap = [] → st.remapping = [] →
      st.retired = [] → (st.wearOf page).stored + 4096 ≤ (st.wearOf page).count → (st.wearOf page).count < 9000000000 →
      let off := 4096 * 6180 + 8 * page
      pageOf off ≠ page → (∀ e ∈ st.wear, e.1 ≠ page → e.2.count + 20 < e.2.stored + 4096 ∧ e.2.count + 20 < 9000000000) →
      let u := st.wearCheck [page]
      (u.wearOf page).stored = (st.wearOf page).count ∧ u.readList off 8 = leBytes (st.wearOf page).count 8
      ∧ (∀ a, (a < off ∨ off + 8 ≤ a) → u.read a = st.read a) ∧ u.remapping = [])
  ∧ (∀ (st : Store) (page : Nat), page ∉ st.retired → (∀ e ∈ st.remap ++ st.remapping, e.1 ≠ page) → page < 6912 →
      let u := st.mustRemap page
      (∀ sp r, st.remapStopped = false → st.freeSpares = sp :: r → u = { st with remapping := st.remapping ++ [(page, sp)] }
        ∧ 6912 ≤ sp ∧ sp < 7424 ∧ ∀ q, 6912 ≤ q → q < sp → q ∈ st.retired ∨ ∃ e ∈ st.remap ++ st.remapping, e.2 = q)
      ∧ (st.remapStopped = true ∨ st.freeSpares = [] → u.retired = st.retired ++ [page] ∧ u.remapping = st.remapping
        ∧ u.mem = st.mem ∧ u.remap = st.remap ∧ u.wear = st.wear)
      ∧ ((st.wearOf page).count < (st.wearOf page).stored + 4096 → 9000000000 ≤ (st.wearOf page).count →
          st.wearCheck [page] = u))
  ∧ (∀ (st : Store) (ws : List (Nat × List Byte)) (a : Nat), st.remapping = [] → st.isRetired a = true →
      (st.put ws).read a = st.read a ∧ (st.put ws).isRetired a = true)
  ∧ (∀ (st : Store) (a : Nat), st.plain 40 = true → st.isBad a = false →
      st.SameOctets (st.putBack a) ∧ (st.putBack a).remapping = [])
  ∧ (∀ (s : State) (off : Nat), s.store.plain 40 = true → s.store.bad = [] →
      let t := s.uncorrectable false [] off
      let a := off / 8 * 8
      let code := regionCode a
      let others := ∀ b, (b < a ∨ a + 8 ≤ b) → t.store.read b = s.store.read b
      (code = 0 ∨ code = 10 → t = s)
      ∧ (1 ≤ code → code ≤ 9 → (t.desk.sources[srcUncorrectable]).counter
            = min 255 ((s.desk.sources[srcUncorrectable]).counter + 1)
          ∧ (t.desk.sources[srcUncorrectable]).detail = BitVec.ofNat 32 code ∧ others)
      ∧ (1 ≤ code → code ≤ 9 → code ≠ 7 → t.store.remapping = [(pageOf a, 6912)])
      ∧ (code = 1 → (∀ i < 8, t.store.read (a + i) = s.store.read (targetBase + a + i))
          ∧ ∀ bw bh c, s.boardSize = some (bw, bh) → Rect.clip
              ⟨2 * (a % 2048), a / 2048, 2 * (a % 2048) + 15, a / 2048⟩ ⟨0, 0, bw - 1, bh - 1⟩ = some c →
            ∃ i, t.torn = s.torn ++ [⟨i, c, 0, 0⟩] ∧ ∀ x ∈ s.torn, x.id < i)
      ∧ (code = 2 → ∀ i < 8, t.store.read (a + i) = s.store.read (a - targetBase + i))
      ∧ (code = 3 → ∀ i < 8, t.store.read (a + i) = 0)
      ∧ ((code = 4 ∨ code = 5 ∨ code = 9) → t.store.bad = [a] ∧ s.store.SameOctets t.store)
      ∧ (∀ n : Tenant, code = 8 → (a - 4096 * 6196) / 128 = n.val → t.store.readings[n] = none)
      ∧ (∀ page, code = 7 → 6180 ≤ pageOf a → (a - 4096 * 6180) / 8 = page → page < 6912 → page ≠ pageOf a →
          (t.store.wearOf page).count = 9000000000 ∧ t.store.remapping = [(page, 6912), (pageOf a, 6913)]))
  ∧ (∀ (s : State) (frame : Bool) (also : List (Fin 64)) (reads : Nat → Bool) (f : Findings),
      (s.store.intact reads = true → s.readWords frame also reads = s)
      ∧ (s.store.unread = ⟨[], []⟩ → (∀ o ∈ f.lost ++ f.fixed, reads (s.store.served o) = false) →
          (s.takeFindings frame also reads f).store.unread = f
          ∧ s.store.SameOctets (s.takeFindings frame also reads f).store)
      ∧ (∀ a, s.store.unread = ⟨[a], []⟩ → reads (s.store.served a) = true → s.readWords frame also reads
          = State.uncorrectable { s with store := { s.store with unread := ⟨[], []⟩ } } frame also a)
      ∧ (∀ a, s.store.plain 40 = true → s.store.unread = ⟨[], [a]⟩ → reads (s.store.served a) = true →
          s.store.isBad a = false → s.store.SameOctets (s.readWords frame also reads).store
          ∧ (s.readWords frame also reads).store.unread = ⟨[], []⟩)
      ∧ (∀ (off : Nat) (b : List Byte) (o : Nat), s.store.plain 40 = true → b.length = 8 → off % 8 = 0 → o % 8 = 0 →
          s.store.unread = ⟨[o], []⟩ →
          (s.store.put [(off, b)]).unread = if o = off then ⟨[], []⟩ else ⟨[o], []⟩))
  ∧ (∀ (s : State) (a : Nat), s.clocked = true → s.clock.src = .start → s.clock.waking = false → s.clock.running = false →
      s.start.strapped = true → s.setup.fuseen = false → s.store.collapsed = false → s.store.plain 40 = true →
      s.store.bad = [] → s.store.unread = ⟨[a], []⟩ → a = bootBaseA ∨ a = bootBaseB →
      Gives .coreSwitchToPll s fun t => t.boot = BitVec.ofNat 32
          (min (leNat (s.store.readList (if a = bootBaseA then bootBaseB else bootBaseA) 4) 0 4 + 1) 0xFFFFFFFF)
        ∧ (s.recallsRest = true → (t.desk.sources[srcUncorrectable]).counter
            = min 255 ((s.desk.sources[srcUncorrectable]).counter + 1)))
  ∧ (∀ (s : State) (page spare : Nat) (r : List (Nat × Nat)), s.awake = true → s.discharging = false →
      s.store.remapping = (page, spare) :: r → s.store.remapStopped = true → s.recallsRest = true →
      (s.store.intact fun off => pageOf (s.store.phys off) = page) = true →
      Gives .remapCopyEnd s fun t => t.store.retired = s.store.retired ++ [page] ∧ t.store.remap = s.store.remap
        ∧ t.store.degraded.contains (s.store.pageRegion page) = true ∧ s.store.SameOctets t.store
        ∧ (t.desk.sources[srcPageRemapped]).counter = (s.desk.sources[srcPageRemapped]).counter
        ∧ (s.countersFit → (t.desk.sources[srcRegionDegraded]).counter
            = min 255 ((s.desk.sources[srcRegionDegraded]).counter
              + if s.store.degraded.contains (s.store.pageRegion page) then 0 else 1)))
  ∧ (∀ (old s : State), s.countersFit → (old.storeNotices s).desk.sources[srcSparesLow].counter
      = min 255 ((s.desk.sources[srcSparesLow]).counter + (([64, 32, 16, 0] : List Nat).filter fun n =>
          n < old.store.freeSpares.length && s.store.freeSpares.length ≤ n).length))

/-- R306, R470 to R477 and R424, at the end of the quick check of a cold start that a full check follows: a box write that
had not finished is completed. A round that had journalled its last frame gets the rows that the journal does not show as
written, and a cleaning round so completed has cleaned its rectangle; a torn round is booked with the net drive of the
frames that it had begun, and its rectangle waits for its cleaning round under the letter that it came from. Every pixel of
a copied part whose round had not run is set back in the target plane. A POST with a round that had run raises TORN, with
0 in DETAIL [23:21] for a torn round and 1 for none, and a RECEIPT of status TORN waits for the end of the roll call
where its tenant is enabled and its RMODE is not SILENT; a POST without one is lost and gives neither. The journal holds
nothing of them any more. The store is said where no page wears out meanwhile, and several rounds or POSTs at once are left
out. That a POST without an unfinished round is TORN with 1 whatever interrupted it (log 26), and that earlier torn rectangles
stand beside a new one (log 24), are the model's readings. -/
def Obligations.RecoveryFollowsTheJournal : Prop :=
  ∀ (s : State), s.mode = .coldStart → s.clock.running = true → s.start.fused = true → s.start.quickChecked = false →
    s.start.fullCheck = true → s.setup.fuseen = false → s.shutting = false → s.discharging = false → s.rollsOver = false →
    s.desks.recalls = [] → s.store.unread = ⟨[], []⟩ → s.store.plain 200 = true → s.store.remapA = [] → s.store.remapB = [] →
    s.store.bad = [] →
    let onStore := fun (r : Rect) => r.x1 < 4096 ∧ r.y1 < 3072
    let gone := fun (t : State) => t.store.rounds = [] ∧ t.store.posts = [] ∧ t.store.live = [] ∧ t.store.boxWrite = none
    let pixels := fun (p : Nat → Nat → Prop) => ∀ x y, x < 4096 → y < 3072 → p x y
    let torn := fun (t : State) => (t.desk.sources[srcTorn]).counter
    let toldTorn := fun (t : State) (p : JPost) (n : Nat) =>
      torn t = min 255 (torn s + 1)
      ∧ (t.desk.sources[srcTorn]).detail = BitVec.ofNat 32 (p.letter.number + 2 ^ 16 * p.letter.tenant.val + 2 ^ 21 * n)
      ∧ t.desks.tornDue = s.desks.tornDue ++
          if (s.fuses.tenants[p.letter.tenant]).enable = true ∧ p.letter.rmode ≠ 3 then
            [(p.letter, s.receiptBody stTorn (p.boot.toNat % 2 ^ 24) (idKind p.letter.ident))] else []
    let untold := fun (t : State) => torn t = torn s ∧ t.desks.tornDue = s.desks.tornDue
    let setBack := fun (t : State) (p : JPost) => pixels fun x y =>
      t.store.pixel targetBase x y
        = (if ∃ r ∈ p.copied, r.contains x y = true then s.store.pixel shownBase x y else s.store.pixel targetBase x y)
    (∀ b o, s.store.boxWrite = some (b, o) → b < 4096 → o.length = 16 → s.store.rounds = [] → s.store.posts = [] →
        Gives (.quickCheckEnd ⟨[], []⟩) s fun t => gone t ∧ untold t ∧ t.torn = s.torn
          ∧ t.store.readList (boxBase + 16 * b) 16 = o
          ∧ ∀ a, (a < boxBase + 16 * b ∨ boxBase + 16 * b + 16 ≤ a) → t.store.read a = s.store.read a)
    ∧ (∀ (j : JRound), s.store.boxWrite = none → s.store.posts = [] → s.store.rounds = [j] → onStore j.rect →
        j.lastDone = true → j.settling = false → j.rowsDone < j.rect.height →
        let r := s.journalRound j
        Gives (.quickCheckEnd ⟨[], []⟩) s fun t => gone t ∧ untold t
          ∧ pixels (fun x y =>
              let left := j.left.contains x y = true
              t.store.ledger x y = (if left then saturateLedger (s.store.ledger x y
                  + r.netTo s.store x y (r.modeFrames + r.tailFrames)) else s.store.ledger x y)
              ∧ t.store.pixel targetBase x y = s.store.pixel targetBase x y
              ∧ t.store.pixel shownBase x y = s.store.pixel (if left then targetBase else shownBase) x y)
          ∧ (j.cleaning = false → t.torn = s.torn)
          ∧ ∀ x, j.cleaning = true → s.torn.find? (·.rect = j.rect) = some x →
              t.torn = s.torn.filter (·.id ≠ x.id)
              ∧ (t.desk.sources[srcCleaningDone]).counter = min 255 ((s.desk.sources[srcCleaningDone]).counter + 1))
    ∧ (∀ (j : JRound) (p : JPost), s.store.boxWrite = none → s.store.posts = [p] → s.store.rounds = [j] →
        p.job = j.job → p.ran = true → onStore j.rect → (∀ r ∈ p.copied, onStore r) → p.copied.length ≤ 8 →
        j.lastDone = false → j.settling = false → j.cleaning = false →
        Gives (.quickCheckEnd ⟨[], []⟩) s fun t => gone t ∧ toldTorn t p 0 ∧ setBack t p
          ∧ pixels (fun x y =>
              t.store.ledger x y = (if j.rect.contains x y = true then saturateLedger (s.store.ledger x y
                  + (s.journalRound j).netTo s.store x y j.frame) else s.store.ledger x y)
              ∧ t.store.pixel shownBase x y = s.store.pixel shownBase x y)
          ∧ ∃ i, (∀ x ∈ s.torn, x.id < i)
              ∧ t.torn = s.torn ++ [⟨i, j.rect, p.letter.tenant, BitVec.ofNat 16 p.letter.number⟩])
    ∧ (∀ (p : JPost), s.store.boxWrite = none → s.store.posts = [p] → s.store.rounds = [] →
        (∀ r ∈ p.copied, onStore r) → p.copied.length ≤ 8 →
        Gives (.quickCheckEnd ⟨[], []⟩) s fun t => gone t ∧ setBack t p ∧ t.torn = s.torn
          ∧ pixels (fun x y => t.store.ledger x y = s.store.ledger x y
              ∧ t.store.pixel shownBase x y = s.store.pixel shownBase x y)
          ∧ if p.ran = true then toldTorn t p 1 else untold t)
end

