-- ==== Sys2Proof/Laws/State.lean ====
section
/-! SUPPORT. One lemma for each field under each named update of State: what the update leaves alone. -/
namespace Sys2Proof.Machine

/-! ## Fields under updates -/

@[simp] theorem State.setChan_mode : ∀ (s : State) (c : Chan) (x : Channel), (s.setChan c x).mode = s.mode
  | _, .a, _ => rfl
  | _, .b, _ => rfl
@[simp] theorem State.setChan_closing : ∀ (s : State) (c : Chan) (x : Channel), (s.setChan c x).closing = s.closing
  | _, .a, _ => rfl
  | _, .b, _ => rfl
@[simp] theorem State.setChan_resetClosing : ∀ (s : State) (c : Chan) (x : Channel), (s.setChan c x).resetClosing = s.resetClosing
  | _, .a, _ => rfl
  | _, .b, _ => rfl
@[simp] theorem State.setChan_discharging : ∀ (s : State) (c : Chan) (x : Channel), (s.setChan c x).discharging = s.discharging
  | _, .a, _ => rfl
  | _, .b, _ => rfl
@[simp] theorem State.setChan_fell : ∀ (s : State) (c : Chan) (x : Channel), (s.setChan c x).fell = s.fell
  | _, .a, _ => rfl
  | _, .b, _ => rfl
@[simp] theorem State.setChan_pins : ∀ (s : State) (c : Chan) (x : Channel), (s.setChan c x).pins = s.pins
  | _, .a, _ => rfl
  | _, .b, _ => rfl
@[simp] theorem State.setChan_clock : ∀ (s : State) (c : Chan) (x : Channel), (s.setChan c x).clock = s.clock
  | _, .a, _ => rfl
  | _, .b, _ => rfl
@[simp] theorem State.setChan_start : ∀ (s : State) (c : Chan) (x : Channel), (s.setChan c x).start = s.start
  | _, .a, _ => rfl
  | _, .b, _ => rfl
@[simp] theorem State.setChan_boot : ∀ (s : State) (c : Chan) (x : Channel), (s.setChan c x).boot = s.boot
  | _, .a, _ => rfl
  | _, .b, _ => rfl
@[simp] theorem State.setChan_setup : ∀ (s : State) (c : Chan) (x : Channel), (s.setChan c x).setup = s.setup
  | _, .a, _ => rfl
  | _, .b, _ => rfl
@[simp] theorem State.setChan_fuses : ∀ (s : State) (c : Chan) (x : Channel), (s.setChan c x).fuses = s.fuses
  | _, .a, _ => rfl
  | _, .b, _ => rfl
@[simp] theorem State.setChan_duplicate : ∀ (s : State) (c : Chan) (x : Channel), (s.setChan c x).duplicate = s.duplicate
  | _, .a, _ => rfl
  | _, .b, _ => rfl
@[simp] theorem State.setChan_portA : ∀ (s : State) (c : Chan) (x : Channel), (s.setChan c x).portA = s.portA
  | _, .a, _ => rfl
  | _, .b, _ => rfl
@[simp] theorem State.setChan_portB : ∀ (s : State) (c : Chan) (x : Channel), (s.setChan c x).portB = s.portB
  | _, .a, _ => rfl
  | _, .b, _ => rfl
@[simp] theorem State.setChan_desks : ∀ (s : State) (c : Chan) (x : Channel), (s.setChan c x).desks = s.desks
  | _, .a, _ => rfl
  | _, .b, _ => rfl
@[simp] theorem State.setChan_desk : ∀ (s : State) (c : Chan) (x : Channel), (s.setChan c x).desk = s.desk
  | _, .a, _ => rfl
  | _, .b, _ => rfl
@[simp] theorem State.setChan_energy : ∀ (s : State) (c : Chan) (x : Channel), (s.setChan c x).energy = s.energy
  | _, .a, _ => rfl
  | _, .b, _ => rfl
@[simp] theorem State.setChan_board : ∀ (s : State) (c : Chan) (x : Channel), (s.setChan c x).board = s.board
  | _, .a, _ => rfl
  | _, .b, _ => rfl
@[simp] theorem State.setChan_waves : ∀ (s : State) (c : Chan) (x : Channel), (s.setChan c x).waves = s.waves
  | _, .a, _ => rfl
  | _, .b, _ => rfl
@[simp] theorem State.setChan_rotation : ∀ (s : State) (c : Chan) (x : Channel), (s.setChan c x).rotation = s.rotation
  | _, .a, _ => rfl
  | _, .b, _ => rfl
@[simp] theorem State.setChan_rotationAt : ∀ (s : State) (c : Chan) (x : Channel), (s.setChan c x).rotationAt = s.rotationAt
  | _, .a, _ => rfl
  | _, .b, _ => rfl
@[simp] theorem State.setChan_thFailed : ∀ (s : State) (c : Chan) (x : Channel), (s.setChan c x).thFailed = s.thFailed
  | _, .a, _ => rfl
  | _, .b, _ => rfl
@[simp] theorem State.setChan_dieTemp : ∀ (s : State) (c : Chan) (x : Channel), (s.setChan c x).dieTemp = s.dieTemp
  | _, .a, _ => rfl
  | _, .b, _ => rfl
@[simp] theorem State.setChan_dieHot : ∀ (s : State) (c : Chan) (x : Channel), (s.setChan c x).dieHot = s.dieHot
  | _, .a, _ => rfl
  | _, .b, _ => rfl
@[simp] theorem State.setChan_store : ∀ (s : State) (c : Chan) (x : Channel), (s.setChan c x).store = s.store
  | _, .a, _ => rfl
  | _, .b, _ => rfl
@[simp] theorem State.setChan_torn : ∀ (s : State) (c : Chan) (x : Channel), (s.setChan c x).torn = s.torn
  | _, .a, _ => rfl
  | _, .b, _ => rfl
@[simp] theorem State.setChan_settling : ∀ (s : State) (c : Chan) (x : Channel), (s.setChan c x).settling = s.settling
  | _, .a, _ => rfl
  | _, .b, _ => rfl
@[simp] theorem State.setChan_renders : ∀ (s : State) (c : Chan) (x : Channel), (s.setChan c x).renders = s.renders
  | _, .a, _ => rfl
  | _, .b, _ => rfl
@[simp] theorem State.setChan_stamp : ∀ (s : State) (c : Chan) (x : Channel), (s.setChan c x).stamp = s.stamp
  | _, .a, _ => rfl
  | _, .b, _ => rfl
@[simp] theorem State.setChan_idle : ∀ (s : State) (c : Chan) (x : Channel), (s.setChan c x).idle = s.idle
  | _, .a, _ => rfl
  | _, .b, _ => rfl
@[simp] theorem State.setChan_tap : ∀ (s : State) (c : Chan) (x : Channel), (s.setChan c x).tap = s.tap
  | _, .a, _ => rfl
  | _, .b, _ => rfl
@[simp] theorem State.setChan_pending : ∀ (s : State) (c : Chan) (x : Channel), (s.setChan c x).pending = s.pending
  | _, .a, _ => rfl
  | _, .b, _ => rfl

@[simp] theorem State.setPort_mode : ∀ (s : State) (p : Port) (x : Courier), (s.setPort p x).mode = s.mode
  | _, .a, _ => rfl
  | _, .b, _ => rfl
@[simp] theorem State.setPort_closing : ∀ (s : State) (p : Port) (x : Courier), (s.setPort p x).closing = s.closing
  | _, .a, _ => rfl
  | _, .b, _ => rfl
@[simp] theorem State.setPort_resetClosing : ∀ (s : State) (p : Port) (x : Courier), (s.setPort p x).resetClosing = s.resetClosing
  | _, .a, _ => rfl
  | _, .b, _ => rfl
@[simp] theorem State.setPort_discharging : ∀ (s : State) (p : Port) (x : Courier), (s.setPort p x).discharging = s.discharging
  | _, .a, _ => rfl
  | _, .b, _ => rfl
@[simp] theorem State.setPort_fell : ∀ (s : State) (p : Port) (x : Courier), (s.setPort p x).fell = s.fell
  | _, .a, _ => rfl
  | _, .b, _ => rfl
@[simp] theorem State.setPort_pins : ∀ (s : State) (p : Port) (x : Courier), (s.setPort p x).pins = s.pins
  | _, .a, _ => rfl
  | _, .b, _ => rfl
@[simp] theorem State.setPort_clock : ∀ (s : State) (p : Port) (x : Courier), (s.setPort p x).clock = s.clock
  | _, .a, _ => rfl
  | _, .b, _ => rfl
@[simp] theorem State.setPort_start : ∀ (s : State) (p : Port) (x : Courier), (s.setPort p x).start = s.start
  | _, .a, _ => rfl
  | _, .b, _ => rfl
@[simp] theorem State.setPort_boot : ∀ (s : State) (p : Port) (x : Courier), (s.setPort p x).boot = s.boot
  | _, .a, _ => rfl
  | _, .b, _ => rfl
@[simp] theorem State.setPort_setup : ∀ (s : State) (p : Port) (x : Courier), (s.setPort p x).setup = s.setup
  | _, .a, _ => rfl
  | _, .b, _ => rfl
@[simp] theorem State.setPort_fuses : ∀ (s : State) (p : Port) (x : Courier), (s.setPort p x).fuses = s.fuses
  | _, .a, _ => rfl
  | _, .b, _ => rfl
@[simp] theorem State.setPort_chanA : ∀ (s : State) (p : Port) (x : Courier), (s.setPort p x).chanA = s.chanA
  | _, .a, _ => rfl
  | _, .b, _ => rfl
@[simp] theorem State.setPort_chanB : ∀ (s : State) (p : Port) (x : Courier), (s.setPort p x).chanB = s.chanB
  | _, .a, _ => rfl
  | _, .b, _ => rfl
@[simp] theorem State.setPort_duplicate : ∀ (s : State) (p : Port) (x : Courier), (s.setPort p x).duplicate = s.duplicate
  | _, .a, _ => rfl
  | _, .b, _ => rfl
@[simp] theorem State.setPort_desks : ∀ (s : State) (p : Port) (x : Courier), (s.setPort p x).desks = s.desks
  | _, .a, _ => rfl
  | _, .b, _ => rfl
@[simp] theorem State.setPort_desk : ∀ (s : State) (p : Port) (x : Courier), (s.setPort p x).desk = s.desk
  | _, .a, _ => rfl
  | _, .b, _ => rfl
@[simp] theorem State.setPort_energy : ∀ (s : State) (p : Port) (x : Courier), (s.setPort p x).energy = s.energy
  | _, .a, _ => rfl
  | _, .b, _ => rfl
@[simp] theorem State.setPort_board : ∀ (s : State) (p : Port) (x : Courier), (s.setPort p x).board = s.board
  | _, .a, _ => rfl
  | _, .b, _ => rfl
@[simp] theorem State.setPort_waves : ∀ (s : State) (p : Port) (x : Courier), (s.setPort p x).waves = s.waves
  | _, .a, _ => rfl
  | _, .b, _ => rfl
@[simp] theorem State.setPort_rotation : ∀ (s : State) (p : Port) (x : Courier), (s.setPort p x).rotation = s.rotation
  | _, .a, _ => rfl
  | _, .b, _ => rfl
@[simp] theorem State.setPort_rotationAt : ∀ (s : State) (p : Port) (x : Courier), (s.setPort p x).rotationAt = s.rotationAt
  | _, .a, _ => rfl
  | _, .b, _ => rfl
@[simp] theorem State.setPort_thFailed : ∀ (s : State) (p : Port) (x : Courier), (s.setPort p x).thFailed = s.thFailed
  | _, .a, _ => rfl
  | _, .b, _ => rfl
@[simp] theorem State.setPort_dieTemp : ∀ (s : State) (p : Port) (x : Courier), (s.setPort p x).dieTemp = s.dieTemp
  | _, .a, _ => rfl
  | _, .b, _ => rfl
@[simp] theorem State.setPort_dieHot : ∀ (s : State) (p : Port) (x : Courier), (s.setPort p x).dieHot = s.dieHot
  | _, .a, _ => rfl
  | _, .b, _ => rfl
@[simp] theorem State.setPort_store : ∀ (s : State) (p : Port) (x : Courier), (s.setPort p x).store = s.store
  | _, .a, _ => rfl
  | _, .b, _ => rfl
@[simp] theorem State.setPort_torn : ∀ (s : State) (p : Port) (x : Courier), (s.setPort p x).torn = s.torn
  | _, .a, _ => rfl
  | _, .b, _ => rfl
@[simp] theorem State.setPort_settling : ∀ (s : State) (p : Port) (x : Courier), (s.setPort p x).settling = s.settling
  | _, .a, _ => rfl
  | _, .b, _ => rfl
@[simp] theorem State.setPort_renders : ∀ (s : State) (p : Port) (x : Courier), (s.setPort p x).renders = s.renders
  | _, .a, _ => rfl
  | _, .b, _ => rfl
@[simp] theorem State.setPort_stamp : ∀ (s : State) (p : Port) (x : Courier), (s.setPort p x).stamp = s.stamp
  | _, .a, _ => rfl
  | _, .b, _ => rfl
@[simp] theorem State.setPort_idle : ∀ (s : State) (p : Port) (x : Courier), (s.setPort p x).idle = s.idle
  | _, .a, _ => rfl
  | _, .b, _ => rfl
@[simp] theorem State.setPort_tap : ∀ (s : State) (p : Port) (x : Courier), (s.setPort p x).tap = s.tap
  | _, .a, _ => rfl
  | _, .b, _ => rfl
@[simp] theorem State.setPort_pending : ∀ (s : State) (p : Port) (x : Courier), (s.setPort p x).pending = s.pending
  | _, .a, _ => rfl
  | _, .b, _ => rfl

@[simp] theorem State.setStanding_mode : ∀ (s : State) (t : Tenant) (x : Standing), (s.setStanding t x).mode = s.mode
  | _, _, _ => rfl
@[simp] theorem State.setStanding_closing : ∀ (s : State) (t : Tenant) (x : Standing), (s.setStanding t x).closing = s.closing
  | _, _, _ => rfl
@[simp] theorem State.setStanding_resetClosing : ∀ (s : State) (t : Tenant) (x : Standing), (s.setStanding t x).resetClosing = s.resetClosing
  | _, _, _ => rfl
@[simp] theorem State.setStanding_discharging : ∀ (s : State) (t : Tenant) (x : Standing), (s.setStanding t x).discharging = s.discharging
  | _, _, _ => rfl
@[simp] theorem State.setStanding_fell : ∀ (s : State) (t : Tenant) (x : Standing), (s.setStanding t x).fell = s.fell
  | _, _, _ => rfl
@[simp] theorem State.setStanding_pins : ∀ (s : State) (t : Tenant) (x : Standing), (s.setStanding t x).pins = s.pins
  | _, _, _ => rfl
@[simp] theorem State.setStanding_clock : ∀ (s : State) (t : Tenant) (x : Standing), (s.setStanding t x).clock = s.clock
  | _, _, _ => rfl
@[simp] theorem State.setStanding_start : ∀ (s : State) (t : Tenant) (x : Standing), (s.setStanding t x).start = s.start
  | _, _, _ => rfl
@[simp] theorem State.setStanding_boot : ∀ (s : State) (t : Tenant) (x : Standing), (s.setStanding t x).boot = s.boot
  | _, _, _ => rfl
@[simp] theorem State.setStanding_setup : ∀ (s : State) (t : Tenant) (x : Standing), (s.setStanding t x).setup = s.setup
  | _, _, _ => rfl
@[simp] theorem State.setStanding_fuses : ∀ (s : State) (t : Tenant) (x : Standing), (s.setStanding t x).fuses = s.fuses
  | _, _, _ => rfl
@[simp] theorem State.setStanding_chanA : ∀ (s : State) (t : Tenant) (x : Standing), (s.setStanding t x).chanA = s.chanA
  | _, _, _ => rfl
@[simp] theorem State.setStanding_chanB : ∀ (s : State) (t : Tenant) (x : Standing), (s.setStanding t x).chanB = s.chanB
  | _, _, _ => rfl
@[simp] theorem State.setStanding_duplicate : ∀ (s : State) (t : Tenant) (x : Standing), (s.setStanding t x).duplicate = s.duplicate
  | _, _, _ => rfl
@[simp] theorem State.setStanding_portA : ∀ (s : State) (t : Tenant) (x : Standing), (s.setStanding t x).portA = s.portA
  | _, _, _ => rfl
@[simp] theorem State.setStanding_portB : ∀ (s : State) (t : Tenant) (x : Standing), (s.setStanding t x).portB = s.portB
  | _, _, _ => rfl
@[simp] theorem State.setStanding_desk : ∀ (s : State) (t : Tenant) (x : Standing), (s.setStanding t x).desk = s.desk
  | _, _, _ => rfl
@[simp] theorem State.setStanding_energy : ∀ (s : State) (t : Tenant) (x : Standing), (s.setStanding t x).energy = s.energy
  | _, _, _ => rfl
@[simp] theorem State.setStanding_board : ∀ (s : State) (t : Tenant) (x : Standing), (s.setStanding t x).board = s.board
  | _, _, _ => rfl
@[simp] theorem State.setStanding_waves : ∀ (s : State) (t : Tenant) (x : Standing), (s.setStanding t x).waves = s.waves
  | _, _, _ => rfl
@[simp] theorem State.setStanding_rotation : ∀ (s : State) (t : Tenant) (x : Standing), (s.setStanding t x).rotation = s.rotation
  | _, _, _ => rfl
@[simp] theorem State.setStanding_rotationAt : ∀ (s : State) (t : Tenant) (x : Standing), (s.setStanding t x).rotationAt = s.rotationAt
  | _, _, _ => rfl
@[simp] theorem State.setStanding_thFailed : ∀ (s : State) (t : Tenant) (x : Standing), (s.setStanding t x).thFailed = s.thFailed
  | _, _, _ => rfl
@[simp] theorem State.setStanding_dieTemp : ∀ (s : State) (t : Tenant) (x : Standing), (s.setStanding t x).dieTemp = s.dieTemp
  | _, _, _ => rfl
@[simp] theorem State.setStanding_dieHot : ∀ (s : State) (t : Tenant) (x : Standing), (s.setStanding t x).dieHot = s.dieHot
  | _, _, _ => rfl
@[simp] theorem State.setStanding_store : ∀ (s : State) (t : Tenant) (x : Standing), (s.setStanding t x).store = s.store
  | _, _, _ => rfl
@[simp] theorem State.setStanding_torn : ∀ (s : State) (t : Tenant) (x : Standing), (s.setStanding t x).torn = s.torn
  | _, _, _ => rfl
@[simp] theorem State.setStanding_settling : ∀ (s : State) (t : Tenant) (x : Standing), (s.setStanding t x).settling = s.settling
  | _, _, _ => rfl
@[simp] theorem State.setStanding_renders : ∀ (s : State) (t : Tenant) (x : Standing), (s.setStanding t x).renders = s.renders
  | _, _, _ => rfl
@[simp] theorem State.setStanding_stamp : ∀ (s : State) (t : Tenant) (x : Standing), (s.setStanding t x).stamp = s.stamp
  | _, _, _ => rfl
@[simp] theorem State.setStanding_idle : ∀ (s : State) (t : Tenant) (x : Standing), (s.setStanding t x).idle = s.idle
  | _, _, _ => rfl
@[simp] theorem State.setStanding_tap : ∀ (s : State) (t : Tenant) (x : Standing), (s.setStanding t x).tap = s.tap
  | _, _, _ => rfl
@[simp] theorem State.setStanding_pending : ∀ (s : State) (t : Tenant) (x : Standing), (s.setStanding t x).pending = s.pending
  | _, _, _ => rfl

@[simp] theorem State.setJob_mode : ∀ (s : State) (j : Nat) (f : Job → Job), (s.setJob j f).mode = s.mode
  | _, _, _ => rfl
@[simp] theorem State.setJob_closing : ∀ (s : State) (j : Nat) (f : Job → Job), (s.setJob j f).closing = s.closing
  | _, _, _ => rfl
@[simp] theorem State.setJob_resetClosing : ∀ (s : State) (j : Nat) (f : Job → Job), (s.setJob j f).resetClosing = s.resetClosing
  | _, _, _ => rfl
@[simp] theorem State.setJob_discharging : ∀ (s : State) (j : Nat) (f : Job → Job), (s.setJob j f).discharging = s.discharging
  | _, _, _ => rfl
@[simp] theorem State.setJob_fell : ∀ (s : State) (j : Nat) (f : Job → Job), (s.setJob j f).fell = s.fell
  | _, _, _ => rfl
@[simp] theorem State.setJob_pins : ∀ (s : State) (j : Nat) (f : Job → Job), (s.setJob j f).pins = s.pins
  | _, _, _ => rfl
@[simp] theorem State.setJob_clock : ∀ (s : State) (j : Nat) (f : Job → Job), (s.setJob j f).clock = s.clock
  | _, _, _ => rfl
@[simp] theorem State.setJob_start : ∀ (s : State) (j : Nat) (f : Job → Job), (s.setJob j f).start = s.start
  | _, _, _ => rfl
@[simp] theorem State.setJob_boot : ∀ (s : State) (j : Nat) (f : Job → Job), (s.setJob j f).boot = s.boot
  | _, _, _ => rfl
@[simp] theorem State.setJob_setup : ∀ (s : State) (j : Nat) (f : Job → Job), (s.setJob j f).setup = s.setup
  | _, _, _ => rfl
@[simp] theorem State.setJob_fuses : ∀ (s : State) (j : Nat) (f : Job → Job), (s.setJob j f).fuses = s.fuses
  | _, _, _ => rfl
@[simp] theorem State.setJob_chanA : ∀ (s : State) (j : Nat) (f : Job → Job), (s.setJob j f).chanA = s.chanA
  | _, _, _ => rfl
@[simp] theorem State.setJob_chanB : ∀ (s : State) (j : Nat) (f : Job → Job), (s.setJob j f).chanB = s.chanB
  | _, _, _ => rfl
@[simp] theorem State.setJob_duplicate : ∀ (s : State) (j : Nat) (f : Job → Job), (s.setJob j f).duplicate = s.duplicate
  | _, _, _ => rfl
@[simp] theorem State.setJob_portA : ∀ (s : State) (j : Nat) (f : Job → Job), (s.setJob j f).portA = s.portA
  | _, _, _ => rfl
@[simp] theorem State.setJob_portB : ∀ (s : State) (j : Nat) (f : Job → Job), (s.setJob j f).portB = s.portB
  | _, _, _ => rfl
@[simp] theorem State.setJob_desk : ∀ (s : State) (j : Nat) (f : Job → Job), (s.setJob j f).desk = s.desk
  | _, _, _ => rfl
@[simp] theorem State.setJob_energy : ∀ (s : State) (j : Nat) (f : Job → Job), (s.setJob j f).energy = s.energy
  | _, _, _ => rfl
@[simp] theorem State.setJob_board : ∀ (s : State) (j : Nat) (f : Job → Job), (s.setJob j f).board = s.board
  | _, _, _ => rfl
@[simp] theorem State.setJob_waves : ∀ (s : State) (j : Nat) (f : Job → Job), (s.setJob j f).waves = s.waves
  | _, _, _ => rfl
@[simp] theorem State.setJob_rotation : ∀ (s : State) (j : Nat) (f : Job → Job), (s.setJob j f).rotation = s.rotation
  | _, _, _ => rfl
@[simp] theorem State.setJob_rotationAt : ∀ (s : State) (j : Nat) (f : Job → Job), (s.setJob j f).rotationAt = s.rotationAt
  | _, _, _ => rfl
@[simp] theorem State.setJob_thFailed : ∀ (s : State) (j : Nat) (f : Job → Job), (s.setJob j f).thFailed = s.thFailed
  | _, _, _ => rfl
@[simp] theorem State.setJob_dieTemp : ∀ (s : State) (j : Nat) (f : Job → Job), (s.setJob j f).dieTemp = s.dieTemp
  | _, _, _ => rfl
@[simp] theorem State.setJob_dieHot : ∀ (s : State) (j : Nat) (f : Job → Job), (s.setJob j f).dieHot = s.dieHot
  | _, _, _ => rfl
@[simp] theorem State.setJob_store : ∀ (s : State) (j : Nat) (f : Job → Job), (s.setJob j f).store = s.store
  | _, _, _ => rfl
@[simp] theorem State.setJob_torn : ∀ (s : State) (j : Nat) (f : Job → Job), (s.setJob j f).torn = s.torn
  | _, _, _ => rfl
@[simp] theorem State.setJob_settling : ∀ (s : State) (j : Nat) (f : Job → Job), (s.setJob j f).settling = s.settling
  | _, _, _ => rfl
@[simp] theorem State.setJob_renders : ∀ (s : State) (j : Nat) (f : Job → Job), (s.setJob j f).renders = s.renders
  | _, _, _ => rfl
@[simp] theorem State.setJob_stamp : ∀ (s : State) (j : Nat) (f : Job → Job), (s.setJob j f).stamp = s.stamp
  | _, _, _ => rfl
@[simp] theorem State.setJob_idle : ∀ (s : State) (j : Nat) (f : Job → Job), (s.setJob j f).idle = s.idle
  | _, _, _ => rfl
@[simp] theorem State.setJob_tap : ∀ (s : State) (j : Nat) (f : Job → Job), (s.setJob j f).tap = s.tap
  | _, _, _ => rfl
@[simp] theorem State.setJob_pending : ∀ (s : State) (j : Nat) (f : Job → Job), (s.setJob j f).pending = s.pending
  | _, _, _ => rfl

@[simp] theorem State.notice_mode : ∀ (s : State) (src : Fin 64) (d : Nat), (s.notice src d).mode = s.mode
  | _, _, _ => rfl
@[simp] theorem State.notice_closing : ∀ (s : State) (src : Fin 64) (d : Nat), (s.notice src d).closing = s.closing
  | _, _, _ => rfl
@[simp] theorem State.notice_resetClosing : ∀ (s : State) (src : Fin 64) (d : Nat), (s.notice src d).resetClosing = s.resetClosing
  | _, _, _ => rfl
@[simp] theorem State.notice_discharging : ∀ (s : State) (src : Fin 64) (d : Nat), (s.notice src d).discharging = s.discharging
  | _, _, _ => rfl
@[simp] theorem State.notice_fell : ∀ (s : State) (src : Fin 64) (d : Nat), (s.notice src d).fell = s.fell
  | _, _, _ => rfl
@[simp] theorem State.notice_pins : ∀ (s : State) (src : Fin 64) (d : Nat), (s.notice src d).pins = s.pins
  | _, _, _ => rfl
@[simp] theorem State.notice_clock : ∀ (s : State) (src : Fin 64) (d : Nat), (s.notice src d).clock = s.clock
  | _, _, _ => rfl
@[simp] theorem State.notice_start : ∀ (s : State) (src : Fin 64) (d : Nat), (s.notice src d).start = s.start
  | _, _, _ => rfl
@[simp] theorem State.notice_boot : ∀ (s : State) (src : Fin 64) (d : Nat), (s.notice src d).boot = s.boot
  | _, _, _ => rfl
@[simp] theorem State.notice_setup : ∀ (s : State) (src : Fin 64) (d : Nat), (s.notice src d).setup = s.setup
  | _, _, _ => rfl
@[simp] theorem State.notice_fuses : ∀ (s : State) (src : Fin 64) (d : Nat), (s.notice src d).fuses = s.fuses
  | _, _, _ => rfl
@[simp] theorem State.notice_chanA : ∀ (s : State) (src : Fin 64) (d : Nat), (s.notice src d).chanA = s.chanA
  | _, _, _ => rfl
@[simp] theorem State.notice_chanB : ∀ (s : State) (src : Fin 64) (d : Nat), (s.notice src d).chanB = s.chanB
  | _, _, _ => rfl
@[simp] theorem State.notice_duplicate : ∀ (s : State) (src : Fin 64) (d : Nat), (s.notice src d).duplicate = s.duplicate
  | _, _, _ => rfl
@[simp] theorem State.notice_portA : ∀ (s : State) (src : Fin 64) (d : Nat), (s.notice src d).portA = s.portA
  | _, _, _ => rfl
@[simp] theorem State.notice_portB : ∀ (s : State) (src : Fin 64) (d : Nat), (s.notice src d).portB = s.portB
  | _, _, _ => rfl
@[simp] theorem State.notice_desks : ∀ (s : State) (src : Fin 64) (d : Nat), (s.notice src d).desks = s.desks
  | _, _, _ => rfl
@[simp] theorem State.notice_energy : ∀ (s : State) (src : Fin 64) (d : Nat), (s.notice src d).energy = s.energy
  | _, _, _ => rfl
@[simp] theorem State.notice_board : ∀ (s : State) (src : Fin 64) (d : Nat), (s.notice src d).board = s.board
  | _, _, _ => rfl
@[simp] theorem State.notice_waves : ∀ (s : State) (src : Fin 64) (d : Nat), (s.notice src d).waves = s.waves
  | _, _, _ => rfl
@[simp] theorem State.notice_rotation : ∀ (s : State) (src : Fin 64) (d : Nat), (s.notice src d).rotation = s.rotation
  | _, _, _ => rfl
@[simp] theorem State.notice_rotationAt : ∀ (s : State) (src : Fin 64) (d : Nat), (s.notice src d).rotationAt = s.rotationAt
  | _, _, _ => rfl
@[simp] theorem State.notice_thFailed : ∀ (s : State) (src : Fin 64) (d : Nat), (s.notice src d).thFailed = s.thFailed
  | _, _, _ => rfl
@[simp] theorem State.notice_dieTemp : ∀ (s : State) (src : Fin 64) (d : Nat), (s.notice src d).dieTemp = s.dieTemp
  | _, _, _ => rfl
@[simp] theorem State.notice_dieHot : ∀ (s : State) (src : Fin 64) (d : Nat), (s.notice src d).dieHot = s.dieHot
  | _, _, _ => rfl
@[simp] theorem State.notice_store : ∀ (s : State) (src : Fin 64) (d : Nat), (s.notice src d).store = s.store
  | _, _, _ => rfl
@[simp] theorem State.notice_torn : ∀ (s : State) (src : Fin 64) (d : Nat), (s.notice src d).torn = s.torn
  | _, _, _ => rfl
@[simp] theorem State.notice_settling : ∀ (s : State) (src : Fin 64) (d : Nat), (s.notice src d).settling = s.settling
  | _, _, _ => rfl
@[simp] theorem State.notice_renders : ∀ (s : State) (src : Fin 64) (d : Nat), (s.notice src d).renders = s.renders
  | _, _, _ => rfl
@[simp] theorem State.notice_stamp : ∀ (s : State) (src : Fin 64) (d : Nat), (s.notice src d).stamp = s.stamp
  | _, _, _ => rfl
@[simp] theorem State.notice_idle : ∀ (s : State) (src : Fin 64) (d : Nat), (s.notice src d).idle = s.idle
  | _, _, _ => rfl
@[simp] theorem State.notice_tap : ∀ (s : State) (src : Fin 64) (d : Nat), (s.notice src d).tap = s.tap
  | _, _, _ => rfl
@[simp] theorem State.notice_pending : ∀ (s : State) (src : Fin 64) (d : Nat), (s.notice src d).pending = s.pending
  | _, _, _ => rfl

@[simp] theorem State.noticeIf_mode : ∀ (s : State) (b : Bool) (src : Fin 64) (d : Nat), (s.noticeIf b src d).mode = s.mode
  | _, true, _, _ => rfl
  | _, false, _, _ => rfl
@[simp] theorem State.noticeIf_closing : ∀ (s : State) (b : Bool) (src : Fin 64) (d : Nat), (s.noticeIf b src d).closing = s.closing
  | _, true, _, _ => rfl
  | _, false, _, _ => rfl
@[simp] theorem State.noticeIf_resetClosing : ∀ (s : State) (b : Bool) (src : Fin 64) (d : Nat), (s.noticeIf b src d).resetClosing = s.resetClosing
  | _, true, _, _ => rfl
  | _, false, _, _ => rfl
@[simp] theorem State.noticeIf_discharging : ∀ (s : State) (b : Bool) (src : Fin 64) (d : Nat), (s.noticeIf b src d).discharging = s.discharging
  | _, true, _, _ => rfl
  | _, false, _, _ => rfl
@[simp] theorem State.noticeIf_fell : ∀ (s : State) (b : Bool) (src : Fin 64) (d : Nat), (s.noticeIf b src d).fell = s.fell
  | _, true, _, _ => rfl
  | _, false, _, _ => rfl
@[simp] theorem State.noticeIf_pins : ∀ (s : State) (b : Bool) (src : Fin 64) (d : Nat), (s.noticeIf b src d).pins = s.pins
  | _, true, _, _ => rfl
  | _, false, _, _ => rfl
@[simp] theorem State.noticeIf_clock : ∀ (s : State) (b : Bool) (src : Fin 64) (d : Nat), (s.noticeIf b src d).clock = s.clock
  | _, true, _, _ => rfl
  | _, false, _, _ => rfl
@[simp] theorem State.noticeIf_start : ∀ (s : State) (b : Bool) (src : Fin 64) (d : Nat), (s.noticeIf b src d).start = s.start
  | _, true, _, _ => rfl
  | _, false, _, _ => rfl
@[simp] theorem State.noticeIf_boot : ∀ (s : State) (b : Bool) (src : Fin 64) (d : Nat), (s.noticeIf b src d).boot = s.boot
  | _, true, _, _ => rfl
  | _, false, _, _ => rfl
@[simp] theorem State.noticeIf_setup : ∀ (s : State) (b : Bool) (src : Fin 64) (d : Nat), (s.noticeIf b src d).setup = s.setup
  | _, true, _, _ => rfl
  | _, false, _, _ => rfl
@[simp] theorem State.noticeIf_fuses : ∀ (s : State) (b : Bool) (src : Fin 64) (d : Nat), (s.noticeIf b src d).fuses = s.fuses
  | _, true, _, _ => rfl
  | _, false, _, _ => rfl
@[simp] theorem State.noticeIf_chanA : ∀ (s : State) (b : Bool) (src : Fin 64) (d : Nat), (s.noticeIf b src d).chanA = s.chanA
  | _, true, _, _ => rfl
  | _, false, _, _ => rfl
@[simp] theorem State.noticeIf_chanB : ∀ (s : State) (b : Bool) (src : Fin 64) (d : Nat), (s.noticeIf b src d).chanB = s.chanB
  | _, true, _, _ => rfl
  | _, false, _, _ => rfl
@[simp] theorem State.noticeIf_duplicate : ∀ (s : State) (b : Bool) (src : Fin 64) (d : Nat), (s.noticeIf b src d).duplicate = s.duplicate
  | _, true, _, _ => rfl
  | _, false, _, _ => rfl
@[simp] theorem State.noticeIf_portA : ∀ (s : State) (b : Bool) (src : Fin 64) (d : Nat), (s.noticeIf b src d).portA = s.portA
  | _, true, _, _ => rfl
  | _, false, _, _ => rfl
@[simp] theorem State.noticeIf_portB : ∀ (s : State) (b : Bool) (src : Fin 64) (d : Nat), (s.noticeIf b src d).portB = s.portB
  | _, true, _, _ => rfl
  | _, false, _, _ => rfl
@[simp] theorem State.noticeIf_desks : ∀ (s : State) (b : Bool) (src : Fin 64) (d : Nat), (s.noticeIf b src d).desks = s.desks
  | _, true, _, _ => rfl
  | _, false, _, _ => rfl
@[simp] theorem State.noticeIf_energy : ∀ (s : State) (b : Bool) (src : Fin 64) (d : Nat), (s.noticeIf b src d).energy = s.energy
  | _, true, _, _ => rfl
  | _, false, _, _ => rfl
@[simp] theorem State.noticeIf_board : ∀ (s : State) (b : Bool) (src : Fin 64) (d : Nat), (s.noticeIf b src d).board = s.board
  | _, true, _, _ => rfl
  | _, false, _, _ => rfl
@[simp] theorem State.noticeIf_waves : ∀ (s : State) (b : Bool) (src : Fin 64) (d : Nat), (s.noticeIf b src d).waves = s.waves
  | _, true, _, _ => rfl
  | _, false, _, _ => rfl
@[simp] theorem State.noticeIf_rotation : ∀ (s : State) (b : Bool) (src : Fin 64) (d : Nat), (s.noticeIf b src d).rotation = s.rotation
  | _, true, _, _ => rfl
  | _, false, _, _ => rfl
@[simp] theorem State.noticeIf_rotationAt : ∀ (s : State) (b : Bool) (src : Fin 64) (d : Nat), (s.noticeIf b src d).rotationAt = s.rotationAt
  | _, true, _, _ => rfl
  | _, false, _, _ => rfl
@[simp] theorem State.noticeIf_thFailed : ∀ (s : State) (b : Bool) (src : Fin 64) (d : Nat), (s.noticeIf b src d).thFailed = s.thFailed
  | _, true, _, _ => rfl
  | _, false, _, _ => rfl
@[simp] theorem State.noticeIf_dieTemp : ∀ (s : State) (b : Bool) (src : Fin 64) (d : Nat), (s.noticeIf b src d).dieTemp = s.dieTemp
  | _, true, _, _ => rfl
  | _, false, _, _ => rfl
@[simp] theorem State.noticeIf_dieHot : ∀ (s : State) (b : Bool) (src : Fin 64) (d : Nat), (s.noticeIf b src d).dieHot = s.dieHot
  | _, true, _, _ => rfl
  | _, false, _, _ => rfl
@[simp] theorem State.noticeIf_store : ∀ (s : State) (b : Bool) (src : Fin 64) (d : Nat), (s.noticeIf b src d).store = s.store
  | _, true, _, _ => rfl
  | _, false, _, _ => rfl
@[simp] theorem State.noticeIf_torn : ∀ (s : State) (b : Bool) (src : Fin 64) (d : Nat), (s.noticeIf b src d).torn = s.torn
  | _, true, _, _ => rfl
  | _, false, _, _ => rfl
@[simp] theorem State.noticeIf_settling : ∀ (s : State) (b : Bool) (src : Fin 64) (d : Nat), (s.noticeIf b src d).settling = s.settling
  | _, true, _, _ => rfl
  | _, false, _, _ => rfl
@[simp] theorem State.noticeIf_renders : ∀ (s : State) (b : Bool) (src : Fin 64) (d : Nat), (s.noticeIf b src d).renders = s.renders
  | _, true, _, _ => rfl
  | _, false, _, _ => rfl
@[simp] theorem State.noticeIf_stamp : ∀ (s : State) (b : Bool) (src : Fin 64) (d : Nat), (s.noticeIf b src d).stamp = s.stamp
  | _, true, _, _ => rfl
  | _, false, _, _ => rfl
@[simp] theorem State.noticeIf_idle : ∀ (s : State) (b : Bool) (src : Fin 64) (d : Nat), (s.noticeIf b src d).idle = s.idle
  | _, true, _, _ => rfl
  | _, false, _, _ => rfl
@[simp] theorem State.noticeIf_tap : ∀ (s : State) (b : Bool) (src : Fin 64) (d : Nat), (s.noticeIf b src d).tap = s.tap
  | _, true, _, _ => rfl
  | _, false, _, _ => rfl
@[simp] theorem State.noticeIf_pending : ∀ (s : State) (b : Bool) (src : Fin 64) (d : Nat), (s.noticeIf b src d).pending = s.pending
  | _, true, _, _ => rfl
  | _, false, _, _ => rfl

@[simp] theorem State.railsAfterFree_mode (s : State) : s.railsAfterFree.mode = s.mode := by unfold State.railsAfterFree; split <;> rfl
@[simp] theorem State.railsAfterFree_closing (s : State) : s.railsAfterFree.closing = s.closing := by unfold State.railsAfterFree; split <;> rfl
@[simp] theorem State.railsAfterFree_resetClosing (s : State) : s.railsAfterFree.resetClosing = s.resetClosing := by unfold State.railsAfterFree; split <;> rfl
@[simp] theorem State.railsAfterFree_discharging (s : State) : s.railsAfterFree.discharging = s.discharging := by unfold State.railsAfterFree; split <;> rfl
@[simp] theorem State.railsAfterFree_fell (s : State) : s.railsAfterFree.fell = s.fell := by unfold State.railsAfterFree; split <;> rfl
@[simp] theorem State.railsAfterFree_pins (s : State) : s.railsAfterFree.pins = s.pins := by unfold State.railsAfterFree; split <;> rfl
@[simp] theorem State.railsAfterFree_clock (s : State) : s.railsAfterFree.clock = s.clock := by unfold State.railsAfterFree; split <;> rfl
@[simp] theorem State.railsAfterFree_start (s : State) : s.railsAfterFree.start = s.start := by unfold State.railsAfterFree; split <;> rfl
@[simp] theorem State.railsAfterFree_boot (s : State) : s.railsAfterFree.boot = s.boot := by unfold State.railsAfterFree; split <;> rfl
@[simp] theorem State.railsAfterFree_setup (s : State) : s.railsAfterFree.setup = s.setup := by unfold State.railsAfterFree; split <;> rfl
@[simp] theorem State.railsAfterFree_fuses (s : State) : s.railsAfterFree.fuses = s.fuses := by unfold State.railsAfterFree; split <;> rfl
@[simp] theorem State.railsAfterFree_chanA (s : State) : s.railsAfterFree.chanA = s.chanA := by unfold State.railsAfterFree; split <;> rfl
@[simp] theorem State.railsAfterFree_chanB (s : State) : s.railsAfterFree.chanB = s.chanB := by unfold State.railsAfterFree; split <;> rfl
@[simp] theorem State.railsAfterFree_duplicate (s : State) : s.railsAfterFree.duplicate = s.duplicate := by unfold State.railsAfterFree; split <;> rfl
@[simp] theorem State.railsAfterFree_portA (s : State) : s.railsAfterFree.portA = s.portA := by unfold State.railsAfterFree; split <;> rfl
@[simp] theorem State.railsAfterFree_portB (s : State) : s.railsAfterFree.portB = s.portB := by unfold State.railsAfterFree; split <;> rfl
@[simp] theorem State.railsAfterFree_desks (s : State) : s.railsAfterFree.desks = s.desks := by unfold State.railsAfterFree; split <;> rfl
@[simp] theorem State.railsAfterFree_desk (s : State) : s.railsAfterFree.desk = s.desk := by unfold State.railsAfterFree; split <;> rfl
@[simp] theorem State.railsAfterFree_energy (s : State) : s.railsAfterFree.energy = s.energy := by unfold State.railsAfterFree; split <;> rfl
@[simp] theorem State.railsAfterFree_waves (s : State) : s.railsAfterFree.waves = s.waves := by unfold State.railsAfterFree; split <;> rfl
@[simp] theorem State.railsAfterFree_rotation (s : State) : s.railsAfterFree.rotation = s.rotation := by unfold State.railsAfterFree; split <;> rfl
@[simp] theorem State.railsAfterFree_rotationAt (s : State) : s.railsAfterFree.rotationAt = s.rotationAt := by unfold State.railsAfterFree; split <;> rfl
@[simp] theorem State.railsAfterFree_thFailed (s : State) : s.railsAfterFree.thFailed = s.thFailed := by unfold State.railsAfterFree; split <;> rfl
@[simp] theorem State.railsAfterFree_dieTemp (s : State) : s.railsAfterFree.dieTemp = s.dieTemp := by unfold State.railsAfterFree; split <;> rfl
@[simp] theorem State.railsAfterFree_dieHot (s : State) : s.railsAfterFree.dieHot = s.dieHot := by unfold State.railsAfterFree; split <;> rfl
@[simp] theorem State.railsAfterFree_store (s : State) : s.railsAfterFree.store = s.store := by unfold State.railsAfterFree; split <;> rfl
@[simp] theorem State.railsAfterFree_torn (s : State) : s.railsAfterFree.torn = s.torn := by unfold State.railsAfterFree; split <;> rfl
@[simp] theorem State.railsAfterFree_settling (s : State) : s.railsAfterFree.settling = s.settling := by unfold State.railsAfterFree; split <;> rfl
@[simp] theorem State.railsAfterFree_renders (s : State) : s.railsAfterFree.renders = s.renders := by unfold State.railsAfterFree; split <;> rfl
@[simp] theorem State.railsAfterFree_stamp (s : State) : s.railsAfterFree.stamp = s.stamp := by unfold State.railsAfterFree; split <;> rfl
@[simp] theorem State.railsAfterFree_idle (s : State) : s.railsAfterFree.idle = s.idle := by unfold State.railsAfterFree; split <;> rfl
@[simp] theorem State.railsAfterFree_tap (s : State) : s.railsAfterFree.tap = s.tap := by unfold State.railsAfterFree; split <;> rfl
@[simp] theorem State.railsAfterFree_pending (s : State) : s.railsAfterFree.pending = s.pending := by unfold State.railsAfterFree; split <;> rfl

@[simp] theorem State.dropHand_mode (s : State) : s.dropHand.mode = s.mode := by unfold State.dropHand; rfl
@[simp] theorem State.dropHand_closing (s : State) : s.dropHand.closing = s.closing := by unfold State.dropHand; rfl
@[simp] theorem State.dropHand_resetClosing (s : State) : s.dropHand.resetClosing = s.resetClosing := by unfold State.dropHand; rfl
@[simp] theorem State.dropHand_discharging (s : State) : s.dropHand.discharging = s.discharging := by unfold State.dropHand; rfl
@[simp] theorem State.dropHand_fell (s : State) : s.dropHand.fell = s.fell := by unfold State.dropHand; rfl
@[simp] theorem State.dropHand_pins (s : State) : s.dropHand.pins = s.pins := by unfold State.dropHand; rfl
@[simp] theorem State.dropHand_clock (s : State) : s.dropHand.clock = s.clock := by unfold State.dropHand; rfl
@[simp] theorem State.dropHand_start (s : State) : s.dropHand.start = s.start := by unfold State.dropHand; rfl
@[simp] theorem State.dropHand_boot (s : State) : s.dropHand.boot = s.boot := by unfold State.dropHand; rfl
@[simp] theorem State.dropHand_setup (s : State) : s.dropHand.setup = s.setup := by unfold State.dropHand; rfl
@[simp] theorem State.dropHand_fuses (s : State) : s.dropHand.fuses = s.fuses := by unfold State.dropHand; rfl
@[simp] theorem State.dropHand_chanA (s : State) : s.dropHand.chanA = s.chanA := by unfold State.dropHand; rfl
@[simp] theorem State.dropHand_chanB (s : State) : s.dropHand.chanB = s.chanB := by unfold State.dropHand; rfl
@[simp] theorem State.dropHand_duplicate (s : State) : s.dropHand.duplicate = s.duplicate := by unfold State.dropHand; rfl
@[simp] theorem State.dropHand_portA (s : State) : s.dropHand.portA = s.portA := by unfold State.dropHand; rfl
@[simp] theorem State.dropHand_portB (s : State) : s.dropHand.portB = s.portB := by unfold State.dropHand; rfl
@[simp] theorem State.dropHand_desks (s : State) : s.dropHand.desks = s.desks := by unfold State.dropHand; rfl
@[simp] theorem State.dropHand_energy (s : State) : s.dropHand.energy = s.energy := by unfold State.dropHand; rfl
@[simp] theorem State.dropHand_board (s : State) : s.dropHand.board = s.board := by unfold State.dropHand; rfl
@[simp] theorem State.dropHand_waves (s : State) : s.dropHand.waves = s.waves := by unfold State.dropHand; rfl
@[simp] theorem State.dropHand_rotation (s : State) : s.dropHand.rotation = s.rotation := by unfold State.dropHand; rfl
@[simp] theorem State.dropHand_rotationAt (s : State) : s.dropHand.rotationAt = s.rotationAt := by unfold State.dropHand; rfl
@[simp] theorem State.dropHand_thFailed (s : State) : s.dropHand.thFailed = s.thFailed := by unfold State.dropHand; rfl
@[simp] theorem State.dropHand_dieTemp (s : State) : s.dropHand.dieTemp = s.dieTemp := by unfold State.dropHand; rfl
@[simp] theorem State.dropHand_dieHot (s : State) : s.dropHand.dieHot = s.dieHot := by unfold State.dropHand; rfl
@[simp] theorem State.dropHand_store (s : State) : s.dropHand.store = s.store := by unfold State.dropHand; rfl
@[simp] theorem State.dropHand_torn (s : State) : s.dropHand.torn = s.torn := by unfold State.dropHand; rfl
@[simp] theorem State.dropHand_settling (s : State) : s.dropHand.settling = s.settling := by unfold State.dropHand; rfl
@[simp] theorem State.dropHand_renders (s : State) : s.dropHand.renders = s.renders := by unfold State.dropHand; rfl
@[simp] theorem State.dropHand_stamp (s : State) : s.dropHand.stamp = s.stamp := by unfold State.dropHand; rfl
@[simp] theorem State.dropHand_idle (s : State) : s.dropHand.idle = s.idle := by unfold State.dropHand; rfl
@[simp] theorem State.dropHand_tap (s : State) : s.dropHand.tap = s.tap := by unfold State.dropHand; rfl
@[simp] theorem State.dropHand_pending (s : State) : s.dropHand.pending = s.pending := by unfold State.dropHand; rfl

@[simp] theorem State.quotaReset_mode (s : State) : s.quotaReset.mode = s.mode := by unfold State.quotaReset; rfl
@[simp] theorem State.quotaReset_closing (s : State) : s.quotaReset.closing = s.closing := by unfold State.quotaReset; rfl
@[simp] theorem State.quotaReset_resetClosing (s : State) : s.quotaReset.resetClosing = s.resetClosing := by unfold State.quotaReset; rfl
@[simp] theorem State.quotaReset_discharging (s : State) : s.quotaReset.discharging = s.discharging := by unfold State.quotaReset; rfl
@[simp] theorem State.quotaReset_fell (s : State) : s.quotaReset.fell = s.fell := by unfold State.quotaReset; rfl
@[simp] theorem State.quotaReset_pins (s : State) : s.quotaReset.pins = s.pins := by unfold State.quotaReset; rfl
@[simp] theorem State.quotaReset_clock (s : State) : s.quotaReset.clock = s.clock := by unfold State.quotaReset; rfl
@[simp] theorem State.quotaReset_start (s : State) : s.quotaReset.start = s.start := by unfold State.quotaReset; rfl
@[simp] theorem State.quotaReset_boot (s : State) : s.quotaReset.boot = s.boot := by unfold State.quotaReset; rfl
@[simp] theorem State.quotaReset_setup (s : State) : s.quotaReset.setup = s.setup := by unfold State.quotaReset; rfl
@[simp] theorem State.quotaReset_fuses (s : State) : s.quotaReset.fuses = s.fuses := by unfold State.quotaReset; rfl
@[simp] theorem State.quotaReset_chanA (s : State) : s.quotaReset.chanA = s.chanA := by unfold State.quotaReset; rfl
@[simp] theorem State.quotaReset_chanB (s : State) : s.quotaReset.chanB = s.chanB := by unfold State.quotaReset; rfl
@[simp] theorem State.quotaReset_duplicate (s : State) : s.quotaReset.duplicate = s.duplicate := by unfold State.quotaReset; rfl
@[simp] theorem State.quotaReset_portA (s : State) : s.quotaReset.portA = s.portA := by unfold State.quotaReset; rfl
@[simp] theorem State.quotaReset_portB (s : State) : s.quotaReset.portB = s.portB := by unfold State.quotaReset; rfl
@[simp] theorem State.quotaReset_desk (s : State) : s.quotaReset.desk = s.desk := by unfold State.quotaReset; rfl
@[simp] theorem State.quotaReset_energy (s : State) : s.quotaReset.energy = s.energy := by unfold State.quotaReset; rfl
@[simp] theorem State.quotaReset_board (s : State) : s.quotaReset.board = s.board := by unfold State.quotaReset; rfl
@[simp] theorem State.quotaReset_waves (s : State) : s.quotaReset.waves = s.waves := by unfold State.quotaReset; rfl
@[simp] theorem State.quotaReset_rotation (s : State) : s.quotaReset.rotation = s.rotation := by unfold State.quotaReset; rfl
@[simp] theorem State.quotaReset_rotationAt (s : State) : s.quotaReset.rotationAt = s.rotationAt := by unfold State.quotaReset; rfl
@[simp] theorem State.quotaReset_thFailed (s : State) : s.quotaReset.thFailed = s.thFailed := by unfold State.quotaReset; rfl
@[simp] theorem State.quotaReset_dieTemp (s : State) : s.quotaReset.dieTemp = s.dieTemp := by unfold State.quotaReset; rfl
@[simp] theorem State.quotaReset_dieHot (s : State) : s.quotaReset.dieHot = s.dieHot := by unfold State.quotaReset; rfl
@[simp] theorem State.quotaReset_store (s : State) : s.quotaReset.store = s.store := by unfold State.quotaReset; rfl
@[simp] theorem State.quotaReset_torn (s : State) : s.quotaReset.torn = s.torn := by unfold State.quotaReset; rfl
@[simp] theorem State.quotaReset_settling (s : State) : s.quotaReset.settling = s.settling := by unfold State.quotaReset; rfl
@[simp] theorem State.quotaReset_renders (s : State) : s.quotaReset.renders = s.renders := by unfold State.quotaReset; rfl
@[simp] theorem State.quotaReset_stamp (s : State) : s.quotaReset.stamp = s.stamp := by unfold State.quotaReset; rfl
@[simp] theorem State.quotaReset_idle (s : State) : s.quotaReset.idle = s.idle := by unfold State.quotaReset; rfl
@[simp] theorem State.quotaReset_tap (s : State) : s.quotaReset.tap = s.tap := by unfold State.quotaReset; rfl
@[simp] theorem State.quotaReset_pending (s : State) : s.quotaReset.pending = s.pending := by unfold State.quotaReset; rfl

@[simp] theorem State.tidy_mode : ∀ s : State, s.tidy.mode = s.mode
  | _ => rfl
@[simp] theorem State.tidy_closing : ∀ s : State, s.tidy.closing = s.closing
  | _ => rfl
@[simp] theorem State.tidy_resetClosing : ∀ s : State, s.tidy.resetClosing = s.resetClosing
  | _ => rfl
@[simp] theorem State.tidy_discharging : ∀ s : State, s.tidy.discharging = s.discharging
  | _ => rfl
@[simp] theorem State.tidy_fell : ∀ s : State, s.tidy.fell = s.fell
  | _ => rfl
@[simp] theorem State.tidy_pins : ∀ s : State, s.tidy.pins = s.pins
  | _ => rfl
@[simp] theorem State.tidy_clock : ∀ s : State, s.tidy.clock = s.clock
  | _ => rfl
@[simp] theorem State.tidy_start : ∀ s : State, s.tidy.start = s.start
  | _ => rfl
@[simp] theorem State.tidy_boot : ∀ s : State, s.tidy.boot = s.boot
  | _ => rfl
@[simp] theorem State.tidy_setup : ∀ s : State, s.tidy.setup = s.setup
  | _ => rfl
@[simp] theorem State.tidy_fuses : ∀ s : State, s.tidy.fuses = s.fuses
  | _ => rfl
@[simp] theorem State.tidy_chanA : ∀ s : State, s.tidy.chanA = s.chanA
  | _ => rfl
@[simp] theorem State.tidy_chanB : ∀ s : State, s.tidy.chanB = s.chanB
  | _ => rfl
@[simp] theorem State.tidy_duplicate : ∀ s : State, s.tidy.duplicate = s.duplicate
  | _ => rfl
@[simp] theorem State.tidy_portA : ∀ s : State, s.tidy.portA = s.portA
  | _ => rfl
@[simp] theorem State.tidy_portB : ∀ s : State, s.tidy.portB = s.portB
  | _ => rfl
@[simp] theorem State.tidy_desks : ∀ s : State, s.tidy.desks = s.desks
  | _ => rfl
@[simp] theorem State.tidy_desk : ∀ s : State, s.tidy.desk = s.desk
  | _ => rfl
@[simp] theorem State.tidy_board : ∀ s : State, s.tidy.board = s.board
  | _ => rfl
@[simp] theorem State.tidy_waves : ∀ s : State, s.tidy.waves = s.waves
  | _ => rfl
@[simp] theorem State.tidy_rotation : ∀ s : State, s.tidy.rotation = s.rotation
  | _ => rfl
@[simp] theorem State.tidy_rotationAt : ∀ s : State, s.tidy.rotationAt = s.rotationAt
  | _ => rfl
@[simp] theorem State.tidy_thFailed : ∀ s : State, s.tidy.thFailed = s.thFailed
  | _ => rfl
@[simp] theorem State.tidy_dieTemp : ∀ s : State, s.tidy.dieTemp = s.dieTemp
  | _ => rfl
@[simp] theorem State.tidy_dieHot : ∀ s : State, s.tidy.dieHot = s.dieHot
  | _ => rfl
@[simp] theorem State.tidy_torn : ∀ s : State, s.tidy.torn = s.torn
  | _ => rfl
@[simp] theorem State.tidy_settling : ∀ s : State, s.tidy.settling = s.settling
  | _ => rfl
@[simp] theorem State.tidy_renders : ∀ s : State, s.tidy.renders = s.renders
  | _ => rfl
@[simp] theorem State.tidy_stamp : ∀ s : State, s.tidy.stamp = s.stamp
  | _ => rfl
@[simp] theorem State.tidy_tap : ∀ s : State, s.tidy.tap = s.tap
  | _ => rfl
@[simp] theorem State.tidy_pending : ∀ s : State, s.tidy.pending = s.pending
  | _ => rfl

@[simp] theorem State.orphan_mode : ∀ s : State, s.orphan.mode = s.mode
  | _ => rfl
@[simp] theorem State.orphan_closing : ∀ s : State, s.orphan.closing = s.closing
  | _ => rfl
@[simp] theorem State.orphan_resetClosing : ∀ s : State, s.orphan.resetClosing = s.resetClosing
  | _ => rfl
@[simp] theorem State.orphan_discharging : ∀ s : State, s.orphan.discharging = s.discharging
  | _ => rfl
@[simp] theorem State.orphan_fell : ∀ s : State, s.orphan.fell = s.fell
  | _ => rfl
@[simp] theorem State.orphan_pins : ∀ s : State, s.orphan.pins = s.pins
  | _ => rfl
@[simp] theorem State.orphan_clock : ∀ s : State, s.orphan.clock = s.clock
  | _ => rfl
@[simp] theorem State.orphan_start : ∀ s : State, s.orphan.start = s.start
  | _ => rfl
@[simp] theorem State.orphan_boot : ∀ s : State, s.orphan.boot = s.boot
  | _ => rfl
@[simp] theorem State.orphan_setup : ∀ s : State, s.orphan.setup = s.setup
  | _ => rfl
@[simp] theorem State.orphan_fuses : ∀ s : State, s.orphan.fuses = s.fuses
  | _ => rfl
@[simp] theorem State.orphan_chanA : ∀ s : State, s.orphan.chanA = s.chanA
  | _ => rfl
@[simp] theorem State.orphan_chanB : ∀ s : State, s.orphan.chanB = s.chanB
  | _ => rfl
@[simp] theorem State.orphan_duplicate : ∀ s : State, s.orphan.duplicate = s.duplicate
  | _ => rfl
@[simp] theorem State.orphan_portA : ∀ s : State, s.orphan.portA = s.portA
  | _ => rfl
@[simp] theorem State.orphan_portB : ∀ s : State, s.orphan.portB = s.portB
  | _ => rfl
@[simp] theorem State.orphan_desk : ∀ s : State, s.orphan.desk = s.desk
  | _ => rfl
@[simp] theorem State.orphan_energy : ∀ s : State, s.orphan.energy = s.energy
  | _ => rfl
@[simp] theorem State.orphan_board : ∀ s : State, s.orphan.board = s.board
  | _ => rfl
@[simp] theorem State.orphan_waves : ∀ s : State, s.orphan.waves = s.waves
  | _ => rfl
@[simp] theorem State.orphan_rotation : ∀ s : State, s.orphan.rotation = s.rotation
  | _ => rfl
@[simp] theorem State.orphan_rotationAt : ∀ s : State, s.orphan.rotationAt = s.rotationAt
  | _ => rfl
@[simp] theorem State.orphan_thFailed : ∀ s : State, s.orphan.thFailed = s.thFailed
  | _ => rfl
@[simp] theorem State.orphan_dieTemp : ∀ s : State, s.orphan.dieTemp = s.dieTemp
  | _ => rfl
@[simp] theorem State.orphan_dieHot : ∀ s : State, s.orphan.dieHot = s.dieHot
  | _ => rfl
@[simp] theorem State.orphan_store : ∀ s : State, s.orphan.store = s.store
  | _ => rfl
@[simp] theorem State.orphan_torn : ∀ s : State, s.orphan.torn = s.torn
  | _ => rfl
@[simp] theorem State.orphan_settling : ∀ s : State, s.orphan.settling = s.settling
  | _ => rfl
@[simp] theorem State.orphan_renders : ∀ s : State, s.orphan.renders = s.renders
  | _ => rfl
@[simp] theorem State.orphan_stamp : ∀ s : State, s.orphan.stamp = s.stamp
  | _ => rfl
@[simp] theorem State.orphan_idle : ∀ s : State, s.orphan.idle = s.idle
  | _ => rfl
@[simp] theorem State.orphan_tap : ∀ s : State, s.orphan.tap = s.tap
  | _ => rfl
@[simp] theorem State.orphan_pending : ∀ s : State, s.orphan.pending = s.pending
  | _ => rfl

@[simp] theorem State.dropStaged_mode : ∀ s : State, s.dropStaged.mode = s.mode
  | _ => rfl
@[simp] theorem State.dropStaged_closing : ∀ s : State, s.dropStaged.closing = s.closing
  | _ => rfl
@[simp] theorem State.dropStaged_resetClosing : ∀ s : State, s.dropStaged.resetClosing = s.resetClosing
  | _ => rfl
@[simp] theorem State.dropStaged_discharging : ∀ s : State, s.dropStaged.discharging = s.discharging
  | _ => rfl
@[simp] theorem State.dropStaged_fell : ∀ s : State, s.dropStaged.fell = s.fell
  | _ => rfl
@[simp] theorem State.dropStaged_pins : ∀ s : State, s.dropStaged.pins = s.pins
  | _ => rfl
@[simp] theorem State.dropStaged_clock : ∀ s : State, s.dropStaged.clock = s.clock
  | _ => rfl
@[simp] theorem State.dropStaged_start : ∀ s : State, s.dropStaged.start = s.start
  | _ => rfl
@[simp] theorem State.dropStaged_boot : ∀ s : State, s.dropStaged.boot = s.boot
  | _ => rfl
@[simp] theorem State.dropStaged_setup : ∀ s : State, s.dropStaged.setup = s.setup
  | _ => rfl
@[simp] theorem State.dropStaged_fuses : ∀ s : State, s.dropStaged.fuses = s.fuses
  | _ => rfl
@[simp] theorem State.dropStaged_chanA : ∀ s : State, s.dropStaged.chanA = s.chanA
  | _ => rfl
@[simp] theorem State.dropStaged_chanB : ∀ s : State, s.dropStaged.chanB = s.chanB
  | _ => rfl
@[simp] theorem State.dropStaged_duplicate : ∀ s : State, s.dropStaged.duplicate = s.duplicate
  | _ => rfl
@[simp] theorem State.dropStaged_portA : ∀ s : State, s.dropStaged.portA = s.portA
  | _ => rfl
@[simp] theorem State.dropStaged_portB : ∀ s : State, s.dropStaged.portB = s.portB
  | _ => rfl
@[simp] theorem State.dropStaged_desk : ∀ s : State, s.dropStaged.desk = s.desk
  | _ => rfl
@[simp] theorem State.dropStaged_energy : ∀ s : State, s.dropStaged.energy = s.energy
  | _ => rfl
@[simp] theorem State.dropStaged_board : ∀ s : State, s.dropStaged.board = s.board
  | _ => rfl
@[simp] theorem State.dropStaged_waves : ∀ s : State, s.dropStaged.waves = s.waves
  | _ => rfl
@[simp] theorem State.dropStaged_rotation : ∀ s : State, s.dropStaged.rotation = s.rotation
  | _ => rfl
@[simp] theorem State.dropStaged_rotationAt : ∀ s : State, s.dropStaged.rotationAt = s.rotationAt
  | _ => rfl
@[simp] theorem State.dropStaged_thFailed : ∀ s : State, s.dropStaged.thFailed = s.thFailed
  | _ => rfl
@[simp] theorem State.dropStaged_dieTemp : ∀ s : State, s.dropStaged.dieTemp = s.dieTemp
  | _ => rfl
@[simp] theorem State.dropStaged_dieHot : ∀ s : State, s.dropStaged.dieHot = s.dieHot
  | _ => rfl
@[simp] theorem State.dropStaged_store : ∀ s : State, s.dropStaged.store = s.store
  | _ => rfl
@[simp] theorem State.dropStaged_torn : ∀ s : State, s.dropStaged.torn = s.torn
  | _ => rfl
@[simp] theorem State.dropStaged_settling : ∀ s : State, s.dropStaged.settling = s.settling
  | _ => rfl
@[simp] theorem State.dropStaged_renders : ∀ s : State, s.dropStaged.renders = s.renders
  | _ => rfl
@[simp] theorem State.dropStaged_stamp : ∀ s : State, s.dropStaged.stamp = s.stamp
  | _ => rfl
@[simp] theorem State.dropStaged_idle : ∀ s : State, s.dropStaged.idle = s.idle
  | _ => rfl
@[simp] theorem State.dropStaged_tap : ∀ s : State, s.dropStaged.tap = s.tap
  | _ => rfl
@[simp] theorem State.dropStaged_pending : ∀ s : State, s.dropStaged.pending = s.pending
  | _ => rfl

@[simp] theorem State.railsStart_mode : ∀ s : State, s.railsStart.mode = s.mode
  | _ => rfl
@[simp] theorem State.railsStart_closing : ∀ s : State, s.railsStart.closing = s.closing
  | _ => rfl
@[simp] theorem State.railsStart_resetClosing : ∀ s : State, s.railsStart.resetClosing = s.resetClosing
  | _ => rfl
@[simp] theorem State.railsStart_discharging : ∀ s : State, s.railsStart.discharging = s.discharging
  | _ => rfl
@[simp] theorem State.railsStart_fell : ∀ s : State, s.railsStart.fell = s.fell
  | _ => rfl
@[simp] theorem State.railsStart_pins : ∀ s : State, s.railsStart.pins = s.pins
  | _ => rfl
@[simp] theorem State.railsStart_clock : ∀ s : State, s.railsStart.clock = s.clock
  | _ => rfl
@[simp] theorem State.railsStart_start : ∀ s : State, s.railsStart.start = s.start
  | _ => rfl
@[simp] theorem State.railsStart_boot : ∀ s : State, s.railsStart.boot = s.boot
  | _ => rfl
@[simp] theorem State.railsStart_setup : ∀ s : State, s.railsStart.setup = s.setup
  | _ => rfl
@[simp] theorem State.railsStart_fuses : ∀ s : State, s.railsStart.fuses = s.fuses
  | _ => rfl
@[simp] theorem State.railsStart_chanA : ∀ s : State, s.railsStart.chanA = s.chanA
  | _ => rfl
@[simp] theorem State.railsStart_chanB : ∀ s : State, s.railsStart.chanB = s.chanB
  | _ => rfl
@[simp] theorem State.railsStart_duplicate : ∀ s : State, s.railsStart.duplicate = s.duplicate
  | _ => rfl
@[simp] theorem State.railsStart_portA : ∀ s : State, s.railsStart.portA = s.portA
  | _ => rfl
@[simp] theorem State.railsStart_portB : ∀ s : State, s.railsStart.portB = s.portB
  | _ => rfl
@[simp] theorem State.railsStart_desks : ∀ s : State, s.railsStart.desks = s.desks
  | _ => rfl
@[simp] theorem State.railsStart_desk : ∀ s : State, s.railsStart.desk = s.desk
  | _ => rfl
@[simp] theorem State.railsStart_energy : ∀ s : State, s.railsStart.energy = s.energy
  | _ => rfl
@[simp] theorem State.railsStart_waves : ∀ s : State, s.railsStart.waves = s.waves
  | _ => rfl
@[simp] theorem State.railsStart_rotation : ∀ s : State, s.railsStart.rotation = s.rotation
  | _ => rfl
@[simp] theorem State.railsStart_rotationAt : ∀ s : State, s.railsStart.rotationAt = s.rotationAt
  | _ => rfl
@[simp] theorem State.railsStart_thFailed : ∀ s : State, s.railsStart.thFailed = s.thFailed
  | _ => rfl
@[simp] theorem State.railsStart_dieTemp : ∀ s : State, s.railsStart.dieTemp = s.dieTemp
  | _ => rfl
@[simp] theorem State.railsStart_dieHot : ∀ s : State, s.railsStart.dieHot = s.dieHot
  | _ => rfl
@[simp] theorem State.railsStart_store : ∀ s : State, s.railsStart.store = s.store
  | _ => rfl
@[simp] theorem State.railsStart_torn : ∀ s : State, s.railsStart.torn = s.torn
  | _ => rfl
@[simp] theorem State.railsStart_settling : ∀ s : State, s.railsStart.settling = s.settling
  | _ => rfl
@[simp] theorem State.railsStart_renders : ∀ s : State, s.railsStart.renders = s.renders
  | _ => rfl
@[simp] theorem State.railsStart_stamp : ∀ s : State, s.railsStart.stamp = s.stamp
  | _ => rfl
@[simp] theorem State.railsStart_idle : ∀ s : State, s.railsStart.idle = s.idle
  | _ => rfl
@[simp] theorem State.railsStart_tap : ∀ s : State, s.railsStart.tap = s.tap
  | _ => rfl
@[simp] theorem State.railsStart_pending : ∀ s : State, s.railsStart.pending = s.pending
  | _ => rfl

@[simp] theorem State.stir_closing : ∀ s : State, s.stir.closing = s.closing
  | _ => rfl
@[simp] theorem State.stir_resetClosing : ∀ s : State, s.stir.resetClosing = s.resetClosing
  | _ => rfl
@[simp] theorem State.stir_discharging : ∀ s : State, s.stir.discharging = s.discharging
  | _ => rfl
@[simp] theorem State.stir_fell : ∀ s : State, s.stir.fell = s.fell
  | _ => rfl
@[simp] theorem State.stir_pins : ∀ s : State, s.stir.pins = s.pins
  | _ => rfl
@[simp] theorem State.stir_clock : ∀ s : State, s.stir.clock = s.clock
  | _ => rfl
@[simp] theorem State.stir_start : ∀ s : State, s.stir.start = s.start
  | _ => rfl
@[simp] theorem State.stir_boot : ∀ s : State, s.stir.boot = s.boot
  | _ => rfl
@[simp] theorem State.stir_setup : ∀ s : State, s.stir.setup = s.setup
  | _ => rfl
@[simp] theorem State.stir_fuses : ∀ s : State, s.stir.fuses = s.fuses
  | _ => rfl
@[simp] theorem State.stir_chanA : ∀ s : State, s.stir.chanA = s.chanA
  | _ => rfl
@[simp] theorem State.stir_chanB : ∀ s : State, s.stir.chanB = s.chanB
  | _ => rfl
@[simp] theorem State.stir_duplicate : ∀ s : State, s.stir.duplicate = s.duplicate
  | _ => rfl
@[simp] theorem State.stir_portA : ∀ s : State, s.stir.portA = s.portA
  | _ => rfl
@[simp] theorem State.stir_portB : ∀ s : State, s.stir.portB = s.portB
  | _ => rfl
@[simp] theorem State.stir_desks : ∀ s : State, s.stir.desks = s.desks
  | _ => rfl
@[simp] theorem State.stir_desk : ∀ s : State, s.stir.desk = s.desk
  | _ => rfl
@[simp] theorem State.stir_energy : ∀ s : State, s.stir.energy = s.energy
  | _ => rfl
@[simp] theorem State.stir_board : ∀ s : State, s.stir.board = s.board
  | _ => rfl
@[simp] theorem State.stir_waves : ∀ s : State, s.stir.waves = s.waves
  | _ => rfl
@[simp] theorem State.stir_rotation : ∀ s : State, s.stir.rotation = s.rotation
  | _ => rfl
@[simp] theorem State.stir_rotationAt : ∀ s : State, s.stir.rotationAt = s.rotationAt
  | _ => rfl
@[simp] theorem State.stir_thFailed : ∀ s : State, s.stir.thFailed = s.thFailed
  | _ => rfl
@[simp] theorem State.stir_dieTemp : ∀ s : State, s.stir.dieTemp = s.dieTemp
  | _ => rfl
@[simp] theorem State.stir_dieHot : ∀ s : State, s.stir.dieHot = s.dieHot
  | _ => rfl
@[simp] theorem State.stir_store : ∀ s : State, s.stir.store = s.store
  | _ => rfl
@[simp] theorem State.stir_torn : ∀ s : State, s.stir.torn = s.torn
  | _ => rfl
@[simp] theorem State.stir_settling : ∀ s : State, s.stir.settling = s.settling
  | _ => rfl
@[simp] theorem State.stir_renders : ∀ s : State, s.stir.renders = s.renders
  | _ => rfl
@[simp] theorem State.stir_stamp : ∀ s : State, s.stir.stamp = s.stamp
  | _ => rfl
@[simp] theorem State.stir_idle : ∀ s : State, s.stir.idle = s.idle
  | _ => rfl
@[simp] theorem State.stir_tap : ∀ s : State, s.stir.tap = s.tap
  | _ => rfl
@[simp] theorem State.stir_pending : ∀ s : State, s.stir.pending = s.pending
  | _ => rfl

@[simp] theorem State.pump_mode : ∀ s : State, s.pump.mode = s.mode
  | _ => rfl
@[simp] theorem State.pump_closing : ∀ s : State, s.pump.closing = s.closing
  | _ => rfl
@[simp] theorem State.pump_resetClosing : ∀ s : State, s.pump.resetClosing = s.resetClosing
  | _ => rfl
@[simp] theorem State.pump_discharging : ∀ s : State, s.pump.discharging = s.discharging
  | _ => rfl
@[simp] theorem State.pump_fell : ∀ s : State, s.pump.fell = s.fell
  | _ => rfl
@[simp] theorem State.pump_pins : ∀ s : State, s.pump.pins = s.pins
  | _ => rfl
@[simp] theorem State.pump_clock : ∀ s : State, s.pump.clock = s.clock
  | _ => rfl
@[simp] theorem State.pump_start : ∀ s : State, s.pump.start = s.start
  | _ => rfl
@[simp] theorem State.pump_boot : ∀ s : State, s.pump.boot = s.boot
  | _ => rfl
@[simp] theorem State.pump_setup : ∀ s : State, s.pump.setup = s.setup
  | _ => rfl
@[simp] theorem State.pump_fuses : ∀ s : State, s.pump.fuses = s.fuses
  | _ => rfl
@[simp] theorem State.pump_duplicate : ∀ s : State, s.pump.duplicate = s.duplicate
  | _ => rfl
@[simp] theorem State.pump_desk : ∀ s : State, s.pump.desk = s.desk
  | _ => rfl
@[simp] theorem State.pump_energy : ∀ s : State, s.pump.energy = s.energy
  | _ => rfl
@[simp] theorem State.pump_board : ∀ s : State, s.pump.board = s.board
  | _ => rfl
@[simp] theorem State.pump_waves : ∀ s : State, s.pump.waves = s.waves
  | _ => rfl
@[simp] theorem State.pump_rotation : ∀ s : State, s.pump.rotation = s.rotation
  | _ => rfl
@[simp] theorem State.pump_rotationAt : ∀ s : State, s.pump.rotationAt = s.rotationAt
  | _ => rfl
@[simp] theorem State.pump_thFailed : ∀ s : State, s.pump.thFailed = s.thFailed
  | _ => rfl
@[simp] theorem State.pump_dieTemp : ∀ s : State, s.pump.dieTemp = s.dieTemp
  | _ => rfl
@[simp] theorem State.pump_dieHot : ∀ s : State, s.pump.dieHot = s.dieHot
  | _ => rfl
@[simp] theorem State.pump_store : ∀ s : State, s.pump.store = s.store
  | _ => rfl
@[simp] theorem State.pump_torn : ∀ s : State, s.pump.torn = s.torn
  | _ => rfl
@[simp] theorem State.pump_settling : ∀ s : State, s.pump.settling = s.settling
  | _ => rfl
@[simp] theorem State.pump_renders : ∀ s : State, s.pump.renders = s.renders
  | _ => rfl
@[simp] theorem State.pump_stamp : ∀ s : State, s.pump.stamp = s.stamp
  | _ => rfl
@[simp] theorem State.pump_idle : ∀ s : State, s.pump.idle = s.idle
  | _ => rfl
@[simp] theorem State.pump_tap : ∀ s : State, s.pump.tap = s.tap
  | _ => rfl
@[simp] theorem State.pump_pending : ∀ s : State, s.pump.pending = s.pending
  | _ => rfl

/-! ## What an update writes -/

@[simp] theorem State.setChan_chan (s : State) (c : Chan) (x : Channel) : (s.setChan c x).chan c = x := by cases c <;> rfl
@[simp] theorem State.setChan_chan_a (s : State) (x : Channel) : (s.setChan .a x).chanA = x := rfl
@[simp] theorem State.setChan_chan_b (s : State) (x : Channel) : (s.setChan .b x).chanB = x := rfl
@[simp] theorem State.setChan_a_chanB (s : State) (x : Channel) : (s.setChan .a x).chanB = s.chanB := rfl
@[simp] theorem State.setChan_b_chanA (s : State) (x : Channel) : (s.setChan .b x).chanA = s.chanA := rfl
theorem State.setChan_other (s : State) (c d : Chan) (x : Channel) (h : d ≠ c) : (s.setChan c x).chan d = s.chan d := by
  cases c <;> cases d <;> first | rfl | exact absurd rfl h
@[simp] theorem State.setPort_port (s : State) (p : Port) (x : Courier) : (s.setPort p x).port p = x := by cases p <;> rfl
theorem State.setPort_other (s : State) (p q : Port) (x : Courier) (h : q ≠ p) : (s.setPort p x).port q = s.port q := by
  cases p <;> cases q <;> first | rfl | exact absurd rfl h
@[simp] theorem State.setChan_setChan (s : State) (c : Chan) (x y : Channel) :
    (s.setChan c x).setChan c y = s.setChan c y := by cases c <;> rfl
@[simp] theorem State.setPort_setPort (s : State) (p : Port) (x y : Courier) :
    (s.setPort p x).setPort p y = s.setPort p y := by cases p <;> rfl
@[simp] theorem State.setChan_port (s : State) (c : Chan) (x : Channel) (p : Port) :
    (s.setChan c x).port p = s.port p := by cases c <;> rfl
@[simp] theorem State.setPort_chan (s : State) (p : Port) (x : Courier) (c : Chan) :
    (s.setPort p x).chan c = s.chan c := by cases p <;> rfl
@[simp] theorem State.notice_chan (s : State) (src : Fin 64) (d : Nat) (c : Chan) :
    (s.notice src d).chan c = s.chan c := by cases c <;> rfl
@[simp] theorem State.notice_port (s : State) (src : Fin 64) (d : Nat) (p : Port) :
    (s.notice src d).port p = s.port p := by cases p <;> rfl
@[simp] theorem State.setStanding_standing (s : State) (t : Tenant) (x : Standing) :
    (s.setStanding t x).desks.standing = s.desks.standing.set t x := rfl
@[simp] theorem State.setStanding_jobs (s : State) (t : Tenant) (x : Standing) :
    (s.setStanding t x).desks.jobs = s.desks.jobs := rfl
@[simp] theorem State.setStanding_recalls (s : State) (t : Tenant) (x : Standing) :
    (s.setStanding t x).desks.recalls = s.desks.recalls := rfl
@[simp] theorem State.setJob_jobs (s : State) (j : Nat) (f : Job → Job) :
    (s.setJob j f).desks.jobs = s.desks.jobs.map fun x => if x.id = j then f x else x := rfl
@[simp] theorem State.setJob_standing (s : State) (j : Nat) (f : Job → Job) :
    (s.setJob j f).desks.standing = s.desks.standing := rfl
@[simp] theorem State.setJob_recalls (s : State) (j : Nat) (f : Job → Job) :
    (s.setJob j f).desks.recalls = s.desks.recalls := rfl
@[simp] theorem State.notice_sources (s : State) (src : Fin 64) (d : Nat) :
    (s.notice src d).desk.sources =
      s.desk.sources.set src ((s.desk.sources[src]).event (0 < s.desk.window) s.clock.uptime s.bootNow s.clock.watchCounted d) :=
  rfl

/-! ## Steady parts: an equation between them gives every field they hold -/


theorem State.steady_mode {s t : State} (h : t.steady = s.steady) : t.mode = s.mode :=
  by have e := congrArg State.mode h; exact e
theorem State.steady_clock {s t : State} (h : t.steady = s.steady) : t.clock = s.clock :=
  by have e := congrArg State.clock h; exact e
theorem State.steady_pins {s t : State} (h : t.steady = s.steady) : t.pins = s.pins :=
  by have e := congrArg State.pins h; exact e
theorem State.steady_closing {s t : State} (h : t.steady = s.steady) : t.closing = s.closing :=
  by have e := congrArg State.closing h; exact e
theorem State.steady_resetClosing {s t : State} (h : t.steady = s.steady) : t.resetClosing = s.resetClosing :=
  by have e := congrArg State.resetClosing h; exact e
theorem State.steady_discharging {s t : State} (h : t.steady = s.steady) : t.discharging = s.discharging :=
  by have e := congrArg State.discharging h; exact e
theorem State.steady_start {s t : State} (h : t.steady = s.steady) : t.start = s.start :=
  by have e := congrArg State.start h; exact e
theorem State.steady_boot {s t : State} (h : t.steady = s.steady) : t.boot = s.boot :=
  by have e := congrArg State.boot h; exact e
theorem State.steady_setup {s t : State} (h : t.steady = s.steady) : t.setup = s.setup :=
  by have e := congrArg State.setup h; exact e
theorem State.steady_fuses {s t : State} (h : t.steady = s.steady) : t.fuses = s.fuses :=
  by have e := congrArg State.fuses h; exact e
theorem State.steady_duplicate {s t : State} (h : t.steady = s.steady) : t.duplicate = s.duplicate :=
  by have e := congrArg State.duplicate h; exact e
theorem State.steady_waves {s t : State} (h : t.steady = s.steady) : t.waves = s.waves :=
  by have e := congrArg State.waves h; exact e
theorem State.steady_rotation {s t : State} (h : t.steady = s.steady) : t.rotation = s.rotation :=
  by have e := congrArg State.rotation h; exact e
theorem State.steady_rotationAt {s t : State} (h : t.steady = s.steady) : t.rotationAt = s.rotationAt :=
  by have e := congrArg State.rotationAt h; exact e
theorem State.steady_thFailed {s t : State} (h : t.steady = s.steady) : t.thFailed = s.thFailed :=
  by have e := congrArg State.thFailed h; exact e
theorem State.steady_dieTemp {s t : State} (h : t.steady = s.steady) : t.dieTemp = s.dieTemp :=
  by have e := congrArg State.dieTemp h; exact e
theorem State.steady_dieHot {s t : State} (h : t.steady = s.steady) : t.dieHot = s.dieHot :=
  by have e := congrArg State.dieHot h; exact e
theorem State.steady_torn {s t : State} (h : t.steady = s.steady) : t.torn = s.torn :=
  by have e := congrArg State.torn h; exact e
theorem State.steady_settling {s t : State} (h : t.steady = s.steady) : t.settling = s.settling :=
  by have e := congrArg State.settling h; exact e
theorem State.steady_stamp {s t : State} (h : t.steady = s.steady) : t.stamp = s.stamp :=
  by have e := congrArg State.stamp h; exact e
theorem State.steady_tap {s t : State} (h : t.steady = s.steady) : t.tap = s.tap :=
  by have e := congrArg State.tap h; exact e
theorem State.steady_pending {s t : State} (h : t.steady = s.steady) : t.pending = s.pending :=
  by have e := congrArg State.pending h; exact e
theorem State.steady_rails {s t : State} (h : t.steady = s.steady) : t.board.rails = s.board.rails :=
  by have e := congrArg (fun x : State => x.board.rails) h; exact e
theorem State.steady_lanes {s t : State} (h : t.steady = s.steady) : t.board.lanes = s.board.lanes :=
  by have e := congrArg (fun x : State => x.board.lanes) h; exact e
theorem State.steady_charger {s t : State} (h : t.steady = s.steady) : t.energy.charger = s.energy.charger :=
  by have e := congrArg (fun x : State => x.energy.charger) h; exact e
theorem State.steady_latest {s t : State} (h : t.steady = s.steady) : t.energy.latest = s.energy.latest :=
  by have e := congrArg (fun x : State => x.energy.latest) h; exact e
theorem State.steady_weighing {s t : State} (h : t.steady = s.steady) : t.energy.weighing = s.energy.weighing :=
  by have e := congrArg (fun x : State => x.energy.weighing) h; exact e
theorem State.steady_uptime {s t : State} (h : t.steady = s.steady) : t.clock.uptime = s.clock.uptime :=
  by have e := congrArg (fun x : State => x.clock.uptime) h; exact e
theorem State.steady_running {s t : State} (h : t.steady = s.steady) : t.clock.running = s.clock.running :=
  by have e := congrArg (fun x : State => x.clock.running) h; exact e
theorem State.steady_watchCounted {s t : State} (h : t.steady = s.steady) : t.clock.watchCounted = s.clock.watchCounted :=
  by have e := congrArg (fun x : State => x.clock.watchCounted) h; exact e

theorem State.steady_board {s t : State} (h : t.steady = s.steady) :
    { t.board with releases := [] } = { s.board with releases := [] } := by
  have e := congrArg State.board h; exact e
theorem State.steady_chan {s t : State} (h : t.steady = s.steady) (c : Chan) : (t.chan c).steady = (s.chan c).steady := by
  cases c
  · have e := congrArg State.chanA h; exact e
  · have e := congrArg State.chanB h; exact e
theorem State.steady_port {s t : State} (h : t.steady = s.steady) (p : Port) : (t.port p).steady = (s.port p).steady := by
  cases p
  · have e := congrArg State.portA h; exact e
  · have e := congrArg State.portB h; exact e
theorem State.steady_desk {s t : State} (h : t.steady = s.steady) : t.desk.steady = s.desk.steady := by
  have e := congrArg State.desk h; exact e
theorem State.steady_desks {s t : State} (h : t.steady = s.steady) : t.desks.steady = s.desks.steady := by
  have e := congrArg State.desks h; exact e
theorem State.steady_energy {s t : State} (h : t.steady = s.steady) :
    { t.energy with shortHeld := false, weighs := [] } = { s.energy with shortHeld := false, weighs := [] } := by
  have e := congrArg State.energy h; exact e

end Sys2Proof.Machine
end

