-- ==== Sys2Proof/Laws/FollowUp.lean ====
section
/-! SUPPORT. What the follow-up of a command can do (`State.finish`): it leaves the steady part of the state alone, and the
store too while no recall is due. -/
namespace Sys2Proof.Machine

/-! ## Lists -/

/-- A fold whose every step keeps a view keeps it. -/
theorem foldl_keeps {α β γ : Type} (view : α → γ) (f : α → β → α) (h : ∀ a b, view (f a b) = view a) (l : List β) (a : α) :
    view (l.foldl f a) = view a := by
  induction l generalizing a with
  | nil => rfl
  | cons b r ih => rw [List.foldl_cons, ih, h]

/-- Both branches have the same view. -/
theorem ite_view {α γ : Type} (view : α → γ) {c : Prop} [Decidable c] {a b : α} {x : γ} (ha : view a = x)
    (hb : view b = x) : view (if c then a else b) = x := by
  split
  · exact ha
  · exact hb

/-! ## Notices -/

@[simp] theorem State.notice_steady (s : State) (src : Fin 64) (d : Nat) : (s.notice src d).steady = s.steady := rfl

@[simp] theorem State.noticeIf_steady (s : State) (b : Bool) (src : Fin 64) (d : Nat) :
    (s.noticeIf b src d).steady = s.steady := by cases b <;> rfl

@[simp] theorem State.notices_steady (s : State) (src : Fin 64) (l : List Nat) : (s.notices src l).steady = s.steady :=
  foldl_keeps State.steady (fun s d => s.notice src d) (fun _ _ => rfl) l s

/-! ## Jobs and letters -/

@[simp] theorem Desks.freeJob_steady (d : Desks) (j : Nat) : (d.freeJob j).steady = d.steady := rfl

@[simp] theorem Desks.endJob_steady (d : Desks) (j : Nat) (b : Byte) : (d.endJob j b).steady = d.steady := rfl

@[simp] theorem Desks.freed_steady (d : Desks) (o : OutLetter) : (d.freed o).steady = d.steady := by
  unfold Desks.freed
  cases o.docket <;> cases o.refusal <;> rfl

/-- Two states that differ in their letters alone have the same steady part when the letters do. -/
theorem State.steady_with_desks (s : State) (d : Desks) (h : d.steady = s.desks.steady) :
    ({ s with desks := d } : State).steady = s.steady := by
  unfold State.steady
  simp only [h]

/-- The steady part does not show the store. -/
theorem State.steady_with_store (s : State) (x : Store) : ({ s with store := x } : State).steady = s.steady := rfl

@[simp] theorem State.sealOut_steady (s : State) (t : Tenant) (k : BitVec 5) (st : BitVec 4) (n : Nat) (b : List Byte) :
    (s.sealOut t k st n b).1.steady = s.steady := by
  unfold State.sealOut
  cases s.mustSeal t
  · rfl
  · cases s.tenantKey t
    · rfl
    · exact (State.noticeIf_steady _ _ _ _).trans (State.steady_with_store _ _)

@[simp] theorem State.send_steady (s : State) (i : Inlet) (ident : BitVec 29) (number : Nat) (kind : BitVec 5)
    (body : List Byte) (plain : Bool) (docket : Option Nat) (refusal : Option Tenant) :
    (s.send i ident number kind body plain docket refusal).steady = s.steady := by
  unfold State.send
  refine ite_view State.steady (State.steady_with_desks _ _ (Desks.freed_steady _ _)) ?_
  cases plain
  · exact (State.steady_with_desks _ _ rfl).trans (State.sealOut_steady _ _ _ _ _ _)
  · exact State.steady_with_desks _ _ rfl

@[simp] theorem State.sendNothing_steady (s : State) (l : Letter) (d : Nat) : (s.sendNothing l d).steady = s.steady := by
  unfold State.sendNothing
  exact ite_view State.steady (State.steady_with_desks _ _ (Desks.freed_steady _ _)) (State.steady_with_desks _ _ rfl)

@[simp] theorem State.receipt_steady (s : State) (l : Letter) (b : Byte) (d : Nat) (j : Option Nat) (t : Option Tenant) :
    (s.receipt l b d j t).steady = s.steady := State.send_steady _ _ _ _ _ _ _ _ _

@[simp] theorem State.conclude_steady (s : State) (j : Job) (b : Byte) (d : Nat) :
    (s.conclude j b d).steady = s.steady := by
  unfold State.conclude
  split
  · rfl
  · dsimp only
    refine ite_view State.steady ?_ ?_
    · exact (State.receipt_steady _ _ _ _ _ _).trans rfl
    · exact (State.sendNothing_steady _ _ _).trans rfl

@[simp] theorem State.setFault_steady (s : State) (t : Tenant) (x : Standing) : (s.setFault t x).steady = s.steady := by
  unfold State.setFault
  exact (State.noticeIf_steady _ _ _ _).trans rfl

/-! ## The stages of the follow-up -/

@[simp] theorem State.dropHand_steady (s : State) : s.dropHand.steady = s.steady := by
  simp only [State.dropHand, State.steady, Desk.steady]

@[simp] theorem State.quotaReset_steady (s : State) : s.quotaReset.steady = s.steady := by
  simp only [State.quotaReset, State.steady, Desks.steady]

@[simp] theorem State.tidy_steady (s : State) : s.tidy.steady = s.steady := by
  unfold State.tidy
  rfl

theorem State.recallEnds_steady (s : State) (t : Tenant) (js : List Nat) : (s.recallEnds t js).steady = s.steady := by
  unfold State.recallEnds
  rw [State.notice_steady]
  refine (foldl_keeps State.steady _ ?_ _ _).trans ?_
  · intro a b
    split
    · exact State.conclude_steady _ _ _ _
    · rfl
  · exact (State.setFault_steady _ _ _).trans rfl

@[simp] theorem State.recallsDone_steady (s : State) (n : Nat) : (s.recallsDone n).steady = s.steady := by
  induction n generalizing s with
  | zero => rfl
  | succ n ih =>
    unfold State.recallsDone
    split
    · rfl
    · rw [ih, State.recallEnds_steady]

@[simp] theorem State.renderDue_steady (s : State) (k : Fin 33) : (s.renderDue k).steady = s.steady := by
  unfold State.renderDue
  exact ite_view State.steady rfl rfl

@[simp] theorem State.stateRenders_steady (old s : State) : (State.stateRenders old s).steady = s.steady := by
  refine foldl_keeps State.steady _ ?_ _ _
  intro a b
  exact ite_view State.steady rfl (State.renderDue_steady _ _)

@[simp] theorem State.flagNotices_steady (old s : State) : (State.flagNotices old s).steady = s.steady :=
  State.notices_steady _ _ _

@[simp] theorem State.changeNotices_steady (old s : State) : (State.changeNotices old s).steady = s.steady := by
  unfold State.changeNotices
  simp only [State.noticeIf_steady, State.notices_steady, State.flagNotices_steady]

@[simp] theorem State.storeNotices_steady (old s : State) : (State.storeNotices old s).steady = s.steady := by
  unfold State.storeNotices
  split
  · rfl
  · simp only [State.notices_steady]

@[simp] theorem State.laneNotices_steady (old s : State) : (State.laneNotices old s).steady = s.steady := by
  unfold State.laneNotices
  simp only [State.notices_steady]

@[simp] theorem State.backlogNotices_steady (old s : State) : (State.backlogNotices old s).steady = s.steady :=
  State.notices_steady _ _ _

/-! ### Loading -/

theorem Channel.fillOne_steady (c : Channel) (x : TxLetter) (n : Nat) : (c.fillOne x n).1.steady = c.steady := by
  induction n generalizing c x with
  | zero => rfl
  | succ n ih =>
    unfold Channel.fillOne
    split
    · rfl
    · dsimp only
      split
      · exact (ih _ _).trans rfl
      · rfl

theorem Channel.fillAll_steady (c : Channel) (b : List (BitVec 29)) (l : List TxLetter) :
    (c.fillAll b l).steady = c.steady := by
  induction l generalizing c b with
  | nil => rfl
  | cons x r ih =>
    unfold Channel.fillAll
    dsimp only
    have one : (if b.contains x.ident then (c, x) else c.fillOne x 4).1.steady = c.steady :=
      ite_view (fun p : Channel × TxLetter => p.1.steady) rfl (Channel.fillOne_steady c x 4)
    have rest := fun k => (ih (if b.contains x.ident then (c, x) else c.fillOne x 4).1 k).trans one
    have hold : ∀ (d : Channel) (l : List TxLetter), ({ d with loading := l } : Channel).steady = d.steady :=
      fun _ _ => rfl
    exact ite_view Channel.steady (rest _) ((hold _ _).trans (rest _))

theorem Channel.load_steady (c : Channel) (x : TxLetter) : (c.load x).steady = c.steady :=
  (Channel.fillAll_steady _ _ _).trans rfl

theorem pumpChannel_steady (c : Chan) (ident : OutLetter → BitVec 29) (fd : Bool) (l : List OutLetter)
    (b : List TxClass) (x : Channel) : (pumpChannel c ident fd l b x).1.steady = x.steady := by
  induction l generalizing b x with
  | nil => rfl
  | cons o r ih =>
    unfold pumpChannel
    refine ite_view (fun p : Channel × List OutLetter => p.1.steady) ?_ ?_
    · refine ite_view (fun p : Channel × List OutLetter => p.1.steady) ?_ (ih _ _)
      exact ite_view (fun p : Channel × List OutLetter => p.1.steady) (ih _ _) ((ih _ _).trans (Channel.load_steady _ _))
    · exact ih _ _

theorem Courier.push_steady (p : Courier) (o : OutLetter) : (p.push o).steady = p.steady := by
  unfold Courier.push
  split <;> rfl

theorem pumpPort_steady (p : Port) (l : List OutLetter) (x : Courier) : (pumpPort p l x).1.steady = x.steady := by
  induction l generalizing x with
  | nil => rfl
  | cons o r ih =>
    unfold pumpPort
    split
    · exact (ih _).trans (ite_view Courier.steady rfl (Courier.push_steady _ _))
    · exact ih _

theorem Desks.settle_steady (d : Desks) (b a : List OutLetter) : (d.settle b a).steady = d.steady := by
  induction b generalizing d a with
  | nil => unfold Desks.settle; rfl
  | cons x b ih =>
    cases a with
    | nil => unfold Desks.settle; rfl
    | cons y a =>
      unfold Desks.settle
      dsimp only
      split
      · split
        · exact (ih _ _).trans (Desks.freed_steady _ _)
        · exact Eq.trans rfl ((ih _ _).trans (Desks.freed_steady _ _))
      · split
        · exact ih _ _
        · exact Eq.trans rfl (ih _ _)

@[simp] theorem State.pump_steady (s : State) : s.pump.steady = s.steady := by
  unfold State.pump State.steady
  simp only [pumpChannel_steady, pumpPort_steady, Desks.settle_steady]

/-! ### The rails and the wake -/

/-- What the rails do when no lane is in use shows in the steady part, and is decided by it (R456, R464). -/
theorem State.railsAfterFree_steady (s : State) : s.railsAfterFree.steady = s.steady.railsAfterFree := by
  unfold State.railsAfterFree
  exact apply_ite State.steady _ _ _

theorem State.railsAfterFree_congr {s t : State} (h : t.steady = s.steady) :
    t.railsAfterFree.steady = s.railsAfterFree.steady := by
  rw [State.railsAfterFree_steady, h, ← State.railsAfterFree_steady]

/-- So does a wake from WATCH. -/
theorem State.wake_steady (s : State) (m : Mode) : (s.wake m).steady = s.steady.wake m := by
  unfold State.wake
  exact apply_ite State.steady _ _ _

/-- The steady part of a woken state is that of the steady part. -/
theorem State.wake_steady_congr {u v : State} {m : Mode} (e : v.steady = u.steady) :
    (v.wake m).steady = (u.wake m).steady := by
  rw [State.wake_steady, e, ← State.wake_steady]

/-- The follow-up of a command leaves the steady part of the state alone, but for rails that go off (R456, R464) and a wake
from WATCH (R558). -/
theorem State.finish_steady_or (old s : State) :
    (State.finish old s).steady = s.railsAfterFree.steady
      ∨ (s.mode = .watch ∧ (State.finish old s).steady = (s.railsAfterFree.wake .active).steady) := by
  unfold State.finish
  dsimp only
  generalize hx : State.stateRenders old _ = x
  generalize hu : State.backlogNotices _ _ = u
  have h : u.steady = s.railsAfterFree.steady := by
    subst hu
    simp only [State.backlogNotices_steady, State.quotaReset_steady, State.pump_steady, State.laneNotices_steady,
      State.storeNotices_steady, State.changeNotices_steady, State.tidy_steady]
    refine State.railsAfterFree_congr ?_
    subst hx
    simp only [State.stateRenders_steady, State.recallsDone_steady, State.dropHand_steady]
  have hm : u.mode = s.mode := by
    have e := congrArg State.mode h
    exact Eq.trans e (State.railsAfterFree_mode s)
  split
  · rename_i hw
    exact Or.inr ⟨hm.symm.trans hw.1, Eq.trans rfl (State.wake_steady_congr h)⟩
  · exact Or.inl (Eq.trans rfl h)

/-- Outside WATCH the follow-up of a command leaves the steady part of the state alone, but for those rails. -/
theorem State.finish_steady (old s : State) (h : s.mode ≠ .watch) :
    (State.finish old s).steady = s.railsAfterFree.steady := by
  rcases State.finish_steady_or old s with e | e
  · exact e
  · exact absurd e.1 h

end Sys2Proof.Machine
end

