-- ==== Sys2Proof/Laws/FollowUp2.lean ====
section
/-! SUPPORT. What the follow-up of a command does to the parts outside the steady one, while no recall is due. -/
namespace Sys2Proof.Machine

/-! ## Recalls -/

theorem State.recallsDone_rest (s : State) (n : Nat) (h : s.recallsRest = true) : s.recallsDone n = s := by
  cases n with
  | zero => rfl
  | succ n =>
    have hn : s.desks.recalls.find? (fun r => !(s.hasStarted r.1)) = none := by
      rw [List.find?_eq_none]
      intro r hr
      have := List.all_eq_true.mp h r hr
      simp [this]
    unfold State.recallsDone
    rw [hn]

/-- A fold whose every step keeps a view keeps it; the view may be any projection. -/
theorem State.notices_view {γ : Type} (view : State → γ) (s : State) (src : Fin 64) (l : List Nat)
    (h : ∀ (u : State) (d : Nat), view (u.notice src d) = view u) : view (s.notices src l) = view s :=
  foldl_keeps view (fun u d => u.notice src d) h l s

theorem State.noticeIf_view {γ : Type} (view : State → γ) (s : State) (b : Bool) (src : Fin 64) (d : Nat)
    (h : ∀ (u : State) (d : Nat), view (u.notice src d) = view u) : view (s.noticeIf b src d) = view s := by
  cases b
  · rfl
  · exact h s d

/-! ## A view that notices and renders do not change -/

/-- A view of the state that notices, renders that are due and idle times do not change. -/
structure Calm {γ : Type} (view : State → γ) : Prop where
  notice : ∀ (u : State) (src : Fin 64) (d : Nat), src ∈ followSources → view (u.notice src d) = view u
  renders : ∀ (u : State) (r : Vector Render 33), view { u with renders := r } = view u
  standing : ∀ (u : State), view u.quotaReset = view u
  hand : ∀ (u : State), view u.dropHand = view u
  tidy : ∀ (u : State), view u.tidy = view u
  rails : ∀ (u : State), view u.railsAfterFree = view u
  pump : ∀ (u : State), view u.pump = view u
  turn : ∀ (u : State), view { u with desk := u.desk.turn } = view u

variable {γ : Type} {view : State → γ}

theorem Calm.notices (h : Calm view) (s : State) (src : Fin 64) (l : List Nat) (hm : src ∈ followSources) :
    view (s.notices src l) = view s := State.notices_view view s src l fun u d => h.notice u src d hm

theorem Calm.noticeIf (h : Calm view) (s : State) (b : Bool) (src : Fin 64) (d : Nat) (hm : src ∈ followSources) :
    view (s.noticeIf b src d) = view s := State.noticeIf_view view s b src d fun u d => h.notice u src d hm

theorem Calm.renderDue (h : Calm view) (s : State) (k : Fin 33) : view (s.renderDue k) = view s := by
  unfold State.renderDue
  exact ite_view view (h.renders _ _) rfl

theorem Calm.stateRenders (h : Calm view) (old s : State) : view (State.stateRenders old s) = view s := by
  refine foldl_keeps view _ ?_ _ _
  intro a b
  exact ite_view view rfl (h.renderDue _ _)

theorem Calm.changeNotices (h : Calm view) (old s : State) : view (State.changeNotices old s) = view s := by
  unfold State.changeNotices
  dsimp only
  rw [h.noticeIf _ _ _ _ (by decide), h.notices _ _ _ (by decide)]
  exact h.notices _ _ _ (by decide)

theorem Calm.storeNotices (h : Calm view) (old s : State) : view (State.storeNotices old s) = view s := by
  unfold State.storeNotices
  refine ite_view view rfl ?_
  dsimp only
  rw [h.notices _ _ _ (by decide), h.notices _ _ _ (by decide)]

theorem Calm.laneNotices (h : Calm view) (old s : State) : view (State.laneNotices old s) = view s := by
  unfold State.laneNotices
  dsimp only
  rw [h.notices _ _ _ (by decide), h.notices _ _ _ (by decide)]

theorem Calm.backlogNotices (h : Calm view) (old s : State) : view (State.backlogNotices old s) = view s :=
  h.notices _ _ _ (by decide)

theorem State.dropHand_recallsRest (s : State) : s.dropHand.recallsRest = s.recallsRest := by
  simp only [State.recallsRest, State.hasStarted, State.dropHand_desks]

/-- A view that the follow-up's work and a wake from WATCH leave alone is kept by the follow-up, while no recall is
due. -/
theorem Calm.finish (h : Calm view) (hw : ∀ u : State, u.mode = .watch → view (u.wake .active) = view u) (old s : State)
    (hr : s.recallsRest = true) : view (State.finish old s) = view s := by
  unfold State.finish
  dsimp only
  rw [show s.dropHand.recallsDone s.dropHand.desks.recalls.length = s.dropHand from 
    State.recallsDone_rest _ _ ((State.dropHand_recallsRest s).trans hr)]
  generalize hu : State.backlogNotices _ _ = u
  have h0 : view u = view s := by
    subst hu
    rw [h.backlogNotices, h.standing, h.pump, h.laneNotices, h.storeNotices, h.changeNotices, h.tidy, h.rails,
      h.stateRenders, h.hand]
  rw [h.turn]
  split
  · rename_i hm
    exact (hw u hm.1).trans h0
  · exact h0

/-! ## The views -/

/-- The store without the list of journalled POSTs and the slots of their commit-start entries. -/
def Store.sansCommits (s : Store) : Store :=
  { s with posts := [], live := s.live.filter fun e => decide (e.entry ≠ .commit) }

theorem Store.dropCommits_sans (s : Store) (ps : List JPost) :
    ({ s with posts := ps } : Store).dropCommits.sansCommits = s.sansCommits := by
  simp only [Store.sansCommits, Store.dropCommits, List.filter_filter]
  congr 1
  refine List.filter_congr fun e _ => ?_
  cases decide (e.entry ≠ .commit) <;> simp

theorem calm_store : Calm (fun s : State => s.store.sansCommits) :=
  { notice := fun _ _ _ _ => rfl, renders := fun _ _ => rfl, standing := fun _ => by simp only [State.quotaReset_store],
    hand := fun _ => by simp only [State.dropHand_store], pump := fun _ => rfl, turn := fun _ => rfl
    tidy := fun u => by
      unfold State.tidy
      cases u.start.quickChecked
      · rfl
      · exact Store.dropCommits_sans u.store _
    rails := fun u => by unfold State.railsAfterFree; split <;> rfl }

/-- While no recall is due, the follow-up writes nothing to the store but the list of journalled POSTs and their entries. -/
theorem State.finish_store (old s : State) (h : s.recallsRest = true) :
    (State.finish old s).store.sansCommits = s.store.sansCommits :=
  calm_store.finish (fun u _ => by unfold State.wake; split <;> rfl) old s h

theorem Store.read_of_eq {s t : Store} (h : t.sansCommits = s.sansCommits) :
    s.SameOctets t := by
  intro a
  have hm : t.mem = s.mem := by have e := congrArg Store.mem h; exact e
  have hr : t.remap = s.remap := by have e := congrArg Store.remap h; exact e
  simp only [Store.read, Store.phys, hm, hr]

theorem State.finish_octets (old s : State) (h : s.recallsRest = true) :
    s.store.SameOctets (State.finish old s).store := Store.read_of_eq (State.finish_store old s h)

theorem Desks.freed_open (d : Desks) (o : OutLetter) :
    (d.freed o).jobs.filter (·.outcome.isNone) = d.jobs.filter (·.outcome.isNone) := by
  unfold Desks.freed
  have h : ∀ (d : Desks) (j : Nat), (d.freeDocket j).jobs.filter (·.outcome.isNone) = d.jobs.filter (·.outcome.isNone) := by
    intro d j
    simp only [Desks.freeDocket, List.filter_filter]
    refine List.filter_congr fun x _ => ?_
    cases x.outcome.isNone <;> simp
  cases o.docket <;> cases o.refusal <;> first | rfl | exact h _ _

theorem Desks.settle_open (d : Desks) (b a : List OutLetter) :
    (d.settle b a).jobs.filter (·.outcome.isNone) = d.jobs.filter (·.outcome.isNone) := by
  induction b generalizing d a with
  | nil => unfold Desks.settle; rfl
  | cons x b ih =>
    cases a with
    | nil => unfold Desks.settle; rfl
    | cons y a =>
      unfold Desks.settle
      dsimp only
      split
      · split
        · exact (ih _ _).trans (Desks.freed_open _ _)
        · exact Eq.trans rfl ((ih _ _).trans (Desks.freed_open _ _))
      · split
        · exact ih _ _
        · exact Eq.trans rfl (ih _ _)

theorem calm_open : Calm State.openJobs :=
  { notice := fun _ _ _ _ => rfl, renders := fun _ _ => rfl
    standing := fun _ => by simp only [State.openJobs, State.quotaReset]
    hand := fun _ => by simp only [State.openJobs, State.dropHand], tidy := fun _ => rfl
    rails := fun u => by unfold State.railsAfterFree; split <;> rfl
    pump := fun u => Desks.settle_open u.desks _ _, turn := fun _ => rfl }

/-- The follow-up keeps every job that has not come to its outcome, while no recall is due. -/
theorem State.finish_open (old s : State) (h : s.recallsRest = true) : (State.finish old s).openJobs = s.openJobs :=
  calm_open.finish (fun u _ => by unfold State.wake; split <;> rfl) old s h

theorem calm_standing : Calm (fun s : State => s.desks.standing.map Standing.held) := by
  have hs : ∀ (d : Desks) (t : Tenant), (d.freeRefusal t).standing.map Standing.held = d.standing.map Standing.held := by
    intro d t
    unfold Desks.freeRefusal
    dsimp only
    ext i hi
    simp only [Vector.getElem_map, Vector.getElem_set]
    split
    · rename_i e
      subst e
      rfl
    · rfl
  have hf : ∀ (d : Desks) (o : OutLetter), (d.freed o).standing.map Standing.held = d.standing.map Standing.held := by
    intro d o
    unfold Desks.freed
    cases o.docket <;> cases o.refusal <;> first | rfl | exact hs _ _
  have hp : ∀ (b a : List OutLetter) (d : Desks),
      (d.settle b a).standing.map Standing.held = d.standing.map Standing.held := by
    intro b
    induction b with
    | nil => intro a d; unfold Desks.settle; rfl
    | cons x b ih =>
      intro a d
      cases a with
      | nil => unfold Desks.settle; rfl
      | cons y a =>
        unfold Desks.settle
        dsimp only
        split
        · split
          · exact (ih _ _).trans (hf _ _)
          · exact Eq.trans rfl ((ih _ _).trans (hf _ _))
        · split
          · exact ih _ _
          · exact Eq.trans rfl (ih _ _)
  exact { notice := fun _ _ _ _ => rfl, renders := fun _ _ => rfl
          standing := fun u => by
            unfold State.quotaReset
            dsimp only
            ext i hi
            simp only [Vector.getElem_map, Vector.getElem_ofFn]
            split <;> rfl
          hand := fun _ => by simp only [State.dropHand_desks], tidy := fun _ => rfl
          rails := fun u => by unfold State.railsAfterFree; split <;> rfl
          pump := fun u => hp _ _ _, turn := fun _ => rfl }

/-- The follow-up keeps every tenant's fault state, strikes and periods, while no recall is due. -/
theorem State.finish_standing (old s : State) (h : s.recallsRest = true) (t : Tenant) :
    ((State.finish old s).desks.standing[t]).held = (s.desks.standing[t]).held := by
  have e := calm_standing.finish (fun u _ => by unfold State.wake; split <;> rfl) old s h
  have e' := congrArg (fun v : Vector Standing 32 => v[t]) e
  simpa only [Fin.getElem_fin, Vector.getElem_map] using e'

theorem calm_queue : Calm (fun s : State => (s.desks.nextOut, s.desks.order, s.desks.cycle, s.desks.recalls)) := by
  have hf : ∀ (d : Desks) (o : OutLetter), ((d.freed o).nextOut, (d.freed o).order, (d.freed o).cycle, (d.freed o).recalls)
      = (d.nextOut, d.order, d.cycle, d.recalls) := by
    intro d o
    unfold Desks.freed
    cases o.docket <;> cases o.refusal <;> rfl
  have hp : ∀ (b a : List OutLetter) (d : Desks), ((d.settle b a).nextOut, (d.settle b a).order, (d.settle b a).cycle,
      (d.settle b a).recalls) = (d.nextOut, d.order, d.cycle, d.recalls) := by
    intro b
    induction b with
    | nil => intro a d; unfold Desks.settle; rfl
    | cons x b ih =>
      intro a d
      cases a with
      | nil => unfold Desks.settle; rfl
      | cons y a =>
        unfold Desks.settle
        dsimp only
        split
        · split
          · exact (ih _ _).trans (hf _ _)
          · exact Eq.trans rfl ((ih _ _).trans (hf _ _))
        · split
          · exact ih _ _
          · exact Eq.trans rfl (ih _ _)
  exact { notice := fun _ _ _ _ => rfl, renders := fun _ _ => rfl
          standing := fun u => by simp only [State.quotaReset]
          hand := fun _ => by simp only [State.dropHand_desks], tidy := fun _ => rfl
          rails := fun u => by unfold State.railsAfterFree; split <;> rfl
          pump := fun u => hp _ _ _, turn := fun _ => rfl }

/-- The follow-up makes no letter and moves no order position, while no recall is due. -/
theorem State.finish_queue (old s : State) (h : s.recallsRest = true) :
    (State.finish old s).desks.nextOut = s.desks.nextOut ∧ (State.finish old s).desks.order = s.desks.order
      ∧ (State.finish old s).desks.cycle = s.desks.cycle ∧ (State.finish old s).desks.recalls = s.desks.recalls := by
  have e := calm_queue.finish (fun u _ => by unfold State.wake; split <;> rfl) old s h
  simpa only [Prod.mk.injEq] using e

theorem calm_source (i : Fin 64) (hi : i ∉ followSources) : Calm (fun s : State => (s.desk.sources[i]).told) :=
  { notice := fun u src d hm => by
      have hne : src ≠ i := fun e => hi (e ▸ hm)
      have : src.val ≠ i.val := fun e => hne (Fin.ext e)
      simp only [State.notice_sources, Fin.getElem_fin, Vector.getElem_set_ne _ _ this]
    renders := fun _ _ => rfl, standing := fun _ => by simp only [State.quotaReset_desk]
    hand := fun u => by
      simp only [State.dropHand, Fin.getElem_fin, Vector.getElem_ofFn]
      split <;> rfl
    tidy := fun _ => rfl, pump := fun _ => rfl, turn := fun _ => rfl
    rails := fun u => by unfold State.railsAfterFree; split <;> rfl }

/-- The follow-up raises no other source than those of `followSources`, while no recall is due. -/
theorem State.finish_source (old s : State) (h : s.recallsRest = true) (i : Fin 64) (hi : i ∉ followSources) :
    ((State.finish old s).desk.sources[i]).told = (s.desk.sources[i]).told :=
  (calm_source i hi).finish (fun u _ => by unfold State.wake; split <;> rfl) old s h

/-- A command's other sources stand as they were. -/
theorem State.notice_source_same (s : State) (src : Fin 64) (d : Nat) :
    ((s.notice src d).desk.sources[src]) =
      (s.desk.sources[src]).event (0 < s.desk.window) s.clock.uptime s.bootNow s.clock.watchCounted d := by
  simp only [State.notice_sources, Fin.getElem_fin, Vector.getElem_set_self]

theorem State.notice_source_other (s : State) (src i : Fin 64) (d : Nat) (h : src ≠ i) :
    ((s.notice src d).desk.sources[i]) = s.desk.sources[i] := by
  have : src.val ≠ i.val := fun e => h (Fin.ext e)
  simp only [State.notice_sources, Fin.getElem_fin, Vector.getElem_set_ne _ _ this]

/-- What the follow-up of a command can do, all of it. -/
theorem State.finish_settles (old u : State) : Settles u (State.finish old u) :=
  { steady := State.finish_steady_or old u, octets := State.finish_octets old u, jobs := State.finish_open old u
    standing := State.finish_standing old u, queue := State.finish_queue old u, sources := State.finish_source old u }

/-- A command that ends with the follow-up gives what its own effect gives, settled. -/
theorem gives_ends {c : Instr} {s u : State} {p : State → Prop} (he : exec c s = s.ends u)
    (hp : ∀ t, Settles u t → p t) : Gives c s p := ⟨_, he, hp _ (State.finish_settles s u)⟩

/-- A command that answers a state outright. -/
theorem gives_next {c : Instr} {s t : State} {p : State → Prop} (he : exec c s = .next t) (hp : p t) : Gives c s p :=
  ⟨t, he, hp⟩

/-- Outside WATCH the steady part is kept, but for rails that R456 or R464 switches off. -/
theorem Settles.still {u t : State} (h : Settles u t) (hm : u.mode ≠ .watch) : t.steady = u.railsAfterFree.steady :=
  h.steady.resolve_right fun e => hm e.1

/-- Whatever is read from steady parts other than the mode, the clock, the charger, the rails and the idle times stands as
the command left it, awake or woken. -/
theorem Settles.keeps {γ : Type} (f : State → γ) {u t : State} (h : Settles u t) (hs : ∀ x, f (State.steady x) = f x)
    (hw : ∀ (x : State) m c i (g : Charger),
      f { x with mode := m, clock := c, idle := i, energy := { x.energy with charger := g } } = f x)
    (hr : ∀ (x : State) (r : Rails) (p : Option Nat),
      f { x with board := { x.board with rails := r, freeSince := p } } = f x) : f t = f u := by
  have wake : ∀ x : State, f (x.wake .active) = f x := by
    intro x
    unfold State.wake
    exact ite_view f (hw _ _ _ _ _) rfl
  have rails : ∀ x : State, f x.railsAfterFree = f x := by
    intro x
    unfold State.railsAfterFree
    exact ite_view f (hr _ _ _) rfl
  rcases h.steady with e | ⟨-, e⟩
  · rw [← hs t, e, hs, rails]
  · rw [← hs t, e, hs, wake, rails]

/-- A settled state is settled from another state too that differs from the first in what the follow-up may change, or
that takes the store or a source as it came out. -/
theorem Settles.restate {u v t : State} (h : Settles u t) (e : v.steady = u.steady) (hr : v.recallsRest = u.recallsRest)
    (ho : v.store.SameOctets t.store ∨ v.store = u.store) (hj : v.openJobs = u.openJobs) (hs : v.desks = u.desks)
    (hd : ∀ i : Fin 64, i ∉ followSources →
      (v.desk.sources[i]).told = (u.desk.sources[i]).told ∨ (v.desk.sources[i]) = t.desk.sources[i]) :
    Settles v t where
  steady := by
    have em : v.mode = u.mode := State.steady_mode e
    have er := State.railsAfterFree_congr e
    rw [em, er, State.wake_steady_congr er]
    exact h.steady
  octets := fun r => by
    rcases ho with ho | ho
    · exact ho
    · rw [ho]
      exact h.octets (hr ▸ r)
  jobs := fun r => by
    rw [hj]
    exact h.jobs (hr ▸ r)
  standing := fun r n => by
    rw [hs]
    exact h.standing (hr ▸ r) n
  queue := fun r => by
    rw [hs]
    exact h.queue (hr ▸ r)
  sources := fun r i hi => by
    rcases hd i hi with e | e
    · rw [e]
      exact h.sources (hr ▸ r) i hi
    · rw [e]

end Sys2Proof.Machine
end

