-- ==== Sys2Proof/Laws/Memory.lean ====
section
/-! SUPPORT. Octet memory: a read after a write, and the canonical form, which every memory operation keeps. -/
namespace Sys2Proof.Machine

variable {d : Nat → Byte}

/-! ## One octet -/

theorem Mem.rising_tail {c : Host.Cell} {r : List Host.Cell} (h : Mem.rising (c :: r) = true) : Mem.rising r = true := by
  cases r with
  | nil => rfl
  | cons e r =>
    simp only [Mem.rising, Bool.and_eq_true] at h
    exact h.2

/-- In rising order every later address is greater than the first. -/
theorem Mem.rising_lt {k : Nat} {v : Byte} {r : List Host.Cell} (h : Mem.rising ((k, v) :: r) = true) :
    ∀ c ∈ r, k < c.1 := by
  induction r generalizing k v with
  | nil => intro c hc; cases hc
  | cons e r ih =>
    intro c hc
    simp only [Mem.rising, Bool.and_eq_true, decide_eq_true_eq] at h
    rcases List.mem_cons.mp hc with rfl | hc
    · exact h.1
    · exact Nat.lt_trans h.1 (ih h.2 c hc)

theorem Mem.read_absent {a : Nat} {m : List Host.Cell} (h : ∀ c ∈ m, a ≠ c.1) : Mem.read d m a = d a := by
  induction m with
  | nil => rfl
  | cons e r ih =>
    unfold Mem.read
    rw [if_neg (fun he => h e (List.mem_cons_self ..) he.symm)]
    exact ih fun c hc => h c (List.mem_cons_of_mem _ hc)

theorem Mem.read_write_same {m : List Host.Cell} (a : Nat) (b : Byte) (h : Mem.rising m = true) :
    Mem.read d (Mem.write d m a b) a = b := by
  induction m with
  | nil =>
    unfold Mem.write
    split
    · rename_i hb
      exact hb.symm
    · simp [Mem.read]
  | cons e r ih =>
    obtain ⟨k, v⟩ := e
    unfold Mem.write
    split
    · rename_i hk
      split
      · rename_i hb
        rw [hb]
        refine Mem.read_absent ?_
        intro c hc
        rcases List.mem_cons.mp hc with rfl | hc
        · exact Nat.ne_of_lt hk
        · exact Nat.ne_of_lt (Nat.lt_trans hk (Mem.rising_lt h c hc))
      · simp [Mem.read]
    · split
      · rename_i _ hk
        split
        · rename_i hb
          rw [hb, hk]
          exact Mem.read_absent fun c hc => Nat.ne_of_lt (Mem.rising_lt h c hc)
        · simp [Mem.read]
      · rename_i _ hk
        unfold Mem.read
        rw [if_neg (fun e => hk e.symm)]
        exact ih (Mem.rising_tail h)

theorem Mem.read_write_other (m : List Host.Cell) (a a' : Nat) (b : Byte) (h : a' ≠ a) :
    Mem.read d (Mem.write d m a b) a' = Mem.read d m a' := by
  induction m with
  | nil =>
    unfold Mem.write
    split
    · rfl
    · simp only [Mem.read]
      rw [if_neg (fun e => h e.symm)]
  | cons e r ih =>
    obtain ⟨k, v⟩ := e
    unfold Mem.write
    split
    · split
      · rfl
      · simp only [Mem.read]
        rw [if_neg (fun e => h e.symm)]
    · split
      · rename_i hk
        split
        · simp only [Mem.read]
          rw [if_neg (fun e => h (hk ▸ e.symm))]
        · simp only [Mem.read]
          rw [if_neg (fun e => h e.symm), if_neg (fun e => h (hk ▸ e.symm))]
      · simp only [Mem.read, ih]

/-- A write adds no address but its own. -/
theorem Mem.write_mem {m : List Host.Cell} {a : Nat} {b : Byte} {c : Host.Cell} (h : c ∈ Mem.write d m a b) :
    c ∈ m ∨ (c = (a, b) ∧ b ≠ d a) := by
  induction m with
  | nil =>
    unfold Mem.write at h
    split at h
    · cases h
    · rename_i hb
      exact Or.inr ⟨List.mem_singleton.mp h, hb⟩
  | cons e r ih =>
    obtain ⟨k, v⟩ := e
    unfold Mem.write at h
    split at h
    · split at h
      · exact Or.inl h
      · rename_i hb
        rcases List.mem_cons.mp h with rfl | h
        · exact Or.inr ⟨rfl, hb⟩
        · exact Or.inl h
    · split at h
      · split at h
        · exact Or.inl (List.mem_cons_of_mem _ h)
        · rename_i hb
          rcases List.mem_cons.mp h with rfl | h
          · exact Or.inr ⟨rfl, hb⟩
          · exact Or.inl (List.mem_cons_of_mem _ h)
      · rcases List.mem_cons.mp h with rfl | h
        · exact Or.inl (List.mem_cons_self ..)
        · exact (ih h).imp_left (List.mem_cons_of_mem _)

theorem Mem.rising_cons {k : Nat} {v : Byte} {r : List Host.Cell} (h : Mem.rising r = true) (hk : ∀ c ∈ r, k < c.1) :
    Mem.rising ((k, v) :: r) = true := by
  cases r with
  | nil => rfl
  | cons e r =>
    simp only [Mem.rising, Bool.and_eq_true, decide_eq_true_eq]
    exact ⟨hk e (List.mem_cons_self ..), h⟩

theorem Mem.write_rising {m : List Host.Cell} (a : Nat) (b : Byte) (h : Mem.rising m = true) :
    Mem.rising (Mem.write d m a b) = true := by
  induction m with
  | nil =>
    unfold Mem.write
    split <;> rfl
  | cons e r ih =>
    obtain ⟨k, v⟩ := e
    have hlt := Mem.rising_lt h
    have ht := Mem.rising_tail h
    unfold Mem.write
    split
    · rename_i hk
      split
      · exact h
      · refine Mem.rising_cons h ?_
        intro c hc
        rcases List.mem_cons.mp hc with rfl | hc
        · exact hk
        · exact Nat.lt_trans hk (hlt c hc)
    · split
      · rename_i _ hk
        split
        · exact ht
        · exact Mem.rising_cons ht fun c hc => hk ▸ hlt c hc
      · rename_i h1 h2
        refine Mem.rising_cons (ih ht) ?_
        intro c hc
        rcases Mem.write_mem hc with hc | ⟨rfl, _⟩
        · exact hlt c hc
        · show k < a
          omega

/-- A write keeps the canonical form. -/
theorem Mem.write_wf {m : List Host.Cell} (a : Nat) (b : Byte) (h : Mem.wf d m = true) :
    Mem.wf d (Mem.write d m a b) = true := by
  unfold Mem.wf at h ⊢
  simp only [Bool.and_eq_true, List.all_eq_true, decide_eq_true_eq] at h ⊢
  refine ⟨Mem.write_rising a b h.1, fun c hc => ?_⟩
  rcases Mem.write_mem hc with hc | ⟨rfl, hb⟩
  · exact h.2 c hc
  · exact hb

/-! ## Consecutive octets -/

theorem Mem.writeList_wf (l : List Byte) : ∀ {m : List Host.Cell} (a : Nat), Mem.wf d m = true →
    Mem.wf d (Mem.writeList d m a l) = true := by
  induction l with
  | nil => intro m a h; exact h
  | cons b r ih => intro m a h; exact ih (a + 1) (Mem.write_wf a b h)

/-! ## The store -/

theorem Store.write_wf {s : Store} (off : Nat) (b : Byte) (h : Memory.wf s.mem = true) :
    Memory.wf (s.write off b).mem = true := by
  unfold Store.write
  split
  · exact h
  · dsimp only
    split
    · exact Mem.write_wf _ _ (Mem.write_wf _ _ h)
    · exact Mem.write_wf _ _ h

theorem Store.writeList_wf (l : List Byte) : ∀ {s : Store} (off : Nat), Memory.wf s.mem = true →
    Memory.wf (s.writeList off l).mem = true := by
  induction l with
  | nil => intro s off h; exact h
  | cons b r ih => intro s off h; exact ih (off + 1) (Store.write_wf off b h)

/-- What a write of the store leaves alone: everything but the octets. -/
def Store.sansMem (s : Store) : Store := { s with mem := [] }

theorem Store.write_sans (s : Store) (off : Nat) (b : Byte) : (s.write off b).sansMem = s.sansMem := by
  unfold Store.write
  split
  · rfl
  · rfl

theorem Store.writeList_sans (l : List Byte) : ∀ (s : Store) (off : Nat), (s.writeList off l).sansMem = s.sansMem := by
  induction l with
  | nil => intro s off; rfl
  | cons b r ih => intro s off; exact (ih (s.write off b) (off + 1)).trans (Store.write_sans s off b)

/-! ## The canonical form under every operation -/

/-- The store's octets are in canonical form. -/
abbrev Store.Canon (s : Store) : Prop := Memory.wf s.mem = true

/-- A fold of operations that keep the canonical form keeps it. -/
theorem foldl_canon {β : Type} (f : Store → β → Store) (h : ∀ s b, Store.Canon s → (f s b).Canon) (l : List β) :
    ∀ s : Store, s.Canon → (l.foldl f s).Canon := by
  induction l with
  | nil => intro s hs; exact hs
  | cons b r ih => intro s hs; exact ih _ (h s b hs)

/-- Either branch is canonical. -/
theorem ite_canon {c : Prop} [Decidable c] {a b : Store} (ha : a.Canon) (hb : b.Canon) :
    (if c then a else b).Canon := by
  split
  · exact ha
  · exact hb

theorem Store.retire_mem (s : Store) (p : Nat) : (s.retire p).mem = s.mem := rfl

theorem Store.mustRemap_mem (s : Store) (p : Nat) : (s.mustRemap p).mem = s.mem := by
  unfold Store.mustRemap
  cases s.freeSpares <;> simp only [apply_ite Store.mem, Store.retire_mem, ite_self]

theorem Store.wearPage_mem (s : Store) (p : Nat) (w : List Nat) : (s.wearPage p w).mem = s.mem := by
  unfold Store.wearPage
  exact (apply_ite Store.mem _ _ _).trans (ite_self _)

theorem Store.mustRemap_canon {s : Store} (p : Nat) (h : s.Canon) : (s.mustRemap p).Canon := by
  rw [Store.Canon, Store.mustRemap_mem]
  exact h

theorem Store.wearPage_canon {s : Store} (p : Nat) (w : List Nat) (h : s.Canon) : (s.wearPage p w).Canon := by
  rw [Store.Canon, Store.wearPage_mem]
  exact h

theorem Store.putWear_canon {s : Store} (p : Nat) (h : s.Canon) : (s.putWear p).Canon := by
  unfold Store.putWear
  exact Store.writeList_wf _ _ h

theorem Store.saveWear_canon (n : Nat) : ∀ {s : Store} (p : Nat), s.Canon → (s.saveWear n p).Canon := by
  induction n with
  | zero => intro s p h; exact h
  | succ n ih =>
    intro s p h
    unfold Store.saveWear
    refine ite_canon h ?_
    dsimp only
    generalize hx : s.putWear p = x
    have h1 : x.Canon := by
      rw [← hx]
      exact Store.putWear_canon p h
    have step : ∀ (y : Store) (q : Nat), y.Canon →
        (if wearStep ≤ (y.wearOf q).count - (y.wearOf q).stored then y.saveWear n q else y).Canon :=
      fun y q hy => ite_canon (ih q hy) hy
    have h2 := step _ (x.wearHolder p) (Store.wearPage_canon (x.wearHolder p) [x.phys (wearOffset p) / 8] h1)
    exact ite_canon (Store.mustRemap_canon _ h2) h2

theorem Store.wearCheck_canon {s : Store} (l : List Nat) (h : s.Canon) : (s.wearCheck l).Canon := by
  refine foldl_canon _ ?_ l s h
  intro s p hs
  have step := ite_canon (c := wearStep ≤ (s.wearOf p).count - (s.wearOf p).stored) (Store.saveWear_canon saveSpan p hs) hs
  exact ite_canon (Store.mustRemap_canon _ step) step

theorem Store.wearWords_canon {s : Store} (l : List Nat) (h : s.Canon) : (s.wearWords l).Canon := by
  unfold Store.wearWords
  exact Store.wearCheck_canon _ (foldl_canon _ (fun _ _ hs => Store.wearPage_canon _ _ hs) _ s h)

theorem Store.put_canon {s : Store} (l : List (Nat × List Byte)) (h : s.Canon) : (s.put l).Canon := by
  unfold Store.put
  refine Store.wearWords_canon _ ?_
  exact foldl_canon _ (fun _ _ hs => Store.writeList_wf _ _ hs) l s h

theorem Store.putBack_canon {s : Store} (o : Nat) (h : s.Canon) : (s.putBack o).Canon :=
  ite_canon h (Store.put_canon _ h)

theorem Store.addMargin_canon {s : Store} (h : s.Canon) : s.addMargin.Canon := by
  unfold Store.addMargin
  exact Store.wearCheck_canon _ h

theorem Store.withCollapsed_canon {s : Store} (b : Bool) (h : s.Canon) : ({ s with collapsed := b } : Store).Canon := h

theorem Store.marginFirst_canon {s : Store} (h : s.Canon) : s.marginFirst.Canon := by
  unfold Store.marginFirst
  exact ite_canon (Store.withCollapsed_canon false (Store.addMargin_canon h)) h

theorem Store.saveAllWear_canon {s : Store} (h : s.Canon) : s.saveAllWear.Canon := by
  unfold Store.saveAllWear
  dsimp only
  refine foldl_canon _ (fun _ _ hs => ite_canon (Store.mustRemap_canon _ hs) hs) _ _ ?_
  refine foldl_canon _ (fun _ _ hs => Store.putWear_canon _ hs) _ _ ?_
  exact foldl_canon _ (fun _ _ hs => Store.wearPage_canon _ _ hs) _ _ (Store.marginFirst_canon h)

theorem Store.copyPage_canon {s : Store} (p q : Nat) (h : s.Canon) : (s.copyPage p q).Canon := by
  unfold Store.copyPage
  dsimp only [Store.Canon]
  generalize Mem.readList storeDefault s.mem (4096 * p) 4096 = l
  exact Mem.writeList_wf l _ h

theorem Store.wearTable_canon {s : Store} (l : List Nat) (h : s.Canon) : (s.wearTable l).Canon :=
  Store.wearWords_canon _ h

theorem Store.remapEnd_canon {s : Store} (p q : Nat) (h : s.Canon) : (s.remapEnd p q).Canon := by
  unfold Store.remapEnd
  dsimp only
  refine ite_canon h (Store.wearTable_canon _ ?_)
  generalize hx : Store.copyPage _ _ _ = x
  have hc : x.Canon := by
    rw [← hx]
    exact Store.copyPage_canon p q h
  exact hc

theorem Store.takeRemap_canon {s : Store} (h : s.Canon) : s.takeRemap.Canon := by
  unfold Store.takeRemap
  exact Store.wearTable_canon _ h

theorem Store.ringClear_canon (base tag n : Nat) : ∀ {s : Store} (m : Nat), s.Canon →
    (s.ringClear base tag n m).1.Canon := by
  induction n with
  | zero => intro s m h; exact h
  | succ n ih =>
    intro s m h
    unfold Store.ringClear
    split
    · dsimp only
      split
      · exact ih _ (Store.put_canon _ (ih _ h))
      · exact ih _ h
    · exact h

theorem Store.setCounter_canon {s : Store} (t : Tenant) (o : Bool) (v : Nat) (h : s.Canon) :
    (s.setCounter t o v).Canon := by
  unfold Store.setCounter
  dsimp only
  have h1 := Store.ringClear_canon ringABase (ringTag t o) 65 (s.ringNext ringABase 9 s.ringA) h
  generalize s.ringClear ringABase (ringTag t o) 65 (s.ringNext ringABase 9 s.ringA) = x at h1 ⊢
  have h2 := Store.ringClear_canon ringBBase (ringTag t o) 65 (x.1.ringNext ringBBase 9 x.1.ringB) h1
  generalize x.1.ringClear ringBBase (ringTag t o) 65 (x.1.ringNext ringBBase 9 x.1.ringB) = y at h2 ⊢
  exact Store.put_canon _ h2

theorem Store.setBoot_canon {s : Store} (v : BitVec 32) (h : s.Canon) : (s.setBoot v).Canon := by
  unfold Store.setBoot
  exact Store.put_canon _ h

theorem Store.clearSlots_canon (n : Nat) : ∀ {s : Store} (m : Nat), s.Canon → (s.clearSlots n m).1.Canon := by
  induction n with
  | zero => intro s m h; exact h
  | succ n ih =>
    intro s m h
    unfold Store.clearSlots
    split
    · exact ih _ (Store.wearWords_canon _ (ih _ h))
    · exact h

theorem Store.journalAt_canon {s : Store} (n : Nat) (k : Option (Nat × JEntry)) (h : s.Canon) :
    (s.journalAt n k).1.Canon := by
  unfold Store.journalAt
  dsimp only
  have h1 := Store.clearSlots_canon (s.live.length + 1) (s.slotFrom 201 n) h
  generalize s.clearSlots (s.live.length + 1) (s.slotFrom 201 n) = x at h1 ⊢
  exact Store.wearWords_canon _ h1

theorem Store.journal_canon {s : Store} (k : Option (Nat × JEntry)) (h : s.Canon) : (s.journal k).Canon :=
  Store.journalAt_canon _ _ h

theorem Store.journalTwice_canon {s : Store} (r : Nat) (e : JEntry) (h : s.Canon) : (s.journalTwice r e).Canon := by
  unfold Store.journalTwice
  dsimp only
  have h1 := Store.journalAt_canon s.journalSlot (some (r, e)) h
  generalize s.journalAt s.journalSlot (some (r, e)) = x at h1 ⊢
  exact Store.journalAt_canon _ _ h1

theorem Store.writeBox_canon {s : Store} (b : Nat) (o : List Byte) (h : s.Canon) : (s.writeBox b o).Canon := by
  unfold Store.writeBox
  exact Store.put_canon _ (Store.journalTwice_canon _ _ h)

theorem Store.restoreTarget_canon {s : Store} (l : List Rect) (h : s.Canon) : (s.restoreTarget l).Canon :=
  foldl_canon _ (fun _ _ hs => Store.put_canon _ hs) l s h

theorem Store.book_canon {s : Store} (r : Round) (rect : Rect) (f : Nat → Nat → Nat) (h : s.Canon) :
    (s.book r rect f).1.Canon := by
  unfold Store.book
  exact Store.put_canon _ h

theorem Store.writeBack_canon {s : Store} (r : Round) (rect : Rect) (f : Nat → Nat → Nat) (h : s.Canon) :
    (s.writeBack r rect f).1.Canon := by
  unfold Store.writeBack
  exact ite_canon (Store.book_canon _ _ _ h) (Store.put_canon _ (Store.book_canon _ _ _ h))

theorem Store.frameBegins_canon {s : Store} (r k : Nat) (l : Bool) (h : s.Canon) : (s.frameBegins r k l).Canon := by
  unfold Store.frameBegins
  have h1 := Store.journal_canon (some (r, JEntry.frame k)) h
  exact ite_canon (c := l = true) (Store.journal_canon (some (r, JEntry.last)) h1) h1

theorem Store.roundStarts_canon {s : Store} (e : JRound) (h : s.Canon) : (s.roundStarts e).Canon := by
  unfold Store.roundStarts
  exact Store.journalTwice_canon _ _ h

theorem Store.close_canon {s : Store} (h : s.Canon) : s.close.Canon := by
  unfold Store.close
  have h2 := Store.journal_canon none (Store.saveAllWear_canon h)
  generalize s.saveAllWear.journal none = x at h2 ⊢
  exact h2

theorem Store.finishBox_canon {s : Store} (h : s.Canon) : s.finishBox.Canon := by
  unfold Store.finishBox
  split
  · exact Store.put_canon _ h
  · exact h

theorem Store.putCut_canon {s : Store} (ws : List (Nat × List Byte)) (h : s.Canon) : (s.putCut ws).Canon :=
  Store.put_canon _ h

theorem Store.cutBox_canon {s : Store} (b : Nat) (o : List Byte) (h : s.Canon) : (s.cutBox b o).Canon := by
  unfold Store.cutBox
  exact Store.putCut_canon _ (Store.journalTwice_canon _ _ h)

theorem State.cutParcel_canon {s : State} (h : s.store.Canon) : s.cutParcel.Canon := by
  unfold State.cutParcel
  split
  · exact Store.putCut_canon _ h
  · exact h

theorem Store.journalRows_canon {s : Store} (r n : Nat) (h : s.Canon) : (s.journalRows r n).Canon :=
  foldl_canon _ (fun _ _ hs => Store.journal_canon _ hs) _ s h

theorem Store.markBad_mem (s : Store) (o : Nat) : (s.markBad o).mem = s.mem := by
  unfold Store.markBad
  exact (apply_ite Store.mem _ _ _).trans (ite_self _)

theorem Store.restart_mem (s : Store) : s.restart.mem = s.mem := rfl

end Sys2Proof.Machine
end

