-- ==== Sys2Proof/Laws/PerInstr.lean ====
section
/-! SUPPORT. One statement for every command as syntax: the store words that a well-formed command names are words of the
store, and none is both corrected and lost. -/
namespace Sys2Proof

/-- Every store word that a well-formed command names is aligned to eight octets and lies below the region that is never
read or written (R612, Table 15.1); a corrected one is not among the lost ones (R620, R622). -/
def Laws.F.Statement (i : Instr) : Prop :=
  i.wf = true → (∀ o ∈ i.findings.lost ++ i.findings.fixed, o % 8 = 0 ∧ o < 0x01D00000)
    ∧ ∀ o ∈ i.findings.fixed, o ∉ i.findings.lost

/-- What the check of findings says of each word. -/
theorem Laws.F.of_findings {i : Instr} {f : Findings} (e : i.findings = f) : Laws.F.Statement i := by
  intro h
  rw [Instr.wf, Bool.and_eq_true, e] at h
  simp only [Findings.wf, Bool.and_eq_true, wordsWf, List.all_eq_true, decide_eq_true_eq] at h
  rw [e]
  refine ⟨fun o ho => ?_, fun o ho hl => ?_⟩
  · rcases List.mem_append.mp ho with ho | ho
    · exact h.1.1.1 o ho
    · exact h.1.1.2 o ho
  · have := h.1.2 o ho
    simp [hl] at this

theorem Laws.F.vsysRestored : Laws.F.Statement .vsysRestored := Laws.F.of_findings rfl
theorem Laws.F.resetAsserted : Laws.F.Statement .resetAsserted := Laws.F.of_findings rfl
theorem Laws.F.resetNegated : Laws.F.Statement .resetNegated := Laws.F.of_findings rfl
theorem Laws.F.strapSamplingEnd (r : StrapSample) : Laws.F.Statement (.strapSamplingEnd r) :=
  Laws.F.of_findings rfl
theorem Laws.F.fuseArrayRead : Laws.F.Statement .fuseArrayRead := Laws.F.of_findings rfl
theorem Laws.F.stampDriveStart : Laws.F.Statement .stampDriveStart := Laws.F.of_findings rfl
theorem Laws.F.coreSwitchToPll : Laws.F.Statement .coreSwitchToPll := Laws.F.of_findings rfl
theorem Laws.F.pllLockTimeout : Laws.F.Statement .pllLockTimeout := Laws.F.of_findings rfl
theorem Laws.F.quickCheckEnd (found : Findings) : Laws.F.Statement (.quickCheckEnd found) :=
  Laws.F.of_findings rfl
theorem Laws.F.fullCheckEnd (found : Findings) : Laws.F.Statement (.fullCheckEnd found) := Laws.F.of_findings rfl
theorem Laws.F.standbySettleEnd (c : Chan) : Laws.F.Statement (.standbySettleEnd c) := Laws.F.of_findings rfl
theorem Laws.F.refclkLoss : Laws.F.Statement .refclkLoss := Laws.F.of_findings rfl
theorem Laws.F.inputLoss : Laws.F.Statement .inputLoss := Laws.F.of_findings rfl
theorem Laws.F.closingTimeEnd : Laws.F.Statement .closingTimeEnd := Laws.F.of_findings rfl
theorem Laws.F.holdUpCollapse : Laws.F.Statement .holdUpCollapse := Laws.F.of_findings rfl
theorem Laws.F.fastDischargeEnd : Laws.F.Statement .fastDischargeEnd := Laws.F.of_findings rfl
theorem Laws.F.collapseRestart : Laws.F.Statement .collapseRestart := Laws.F.of_findings rfl
theorem Laws.F.vioLoss : Laws.F.Statement .vioLoss := Laws.F.of_findings rfl
theorem Laws.F.vioReturn : Laws.F.Statement .vioReturn := Laws.F.of_findings rfl
theorem Laws.F.hvgoodAsserted : Laws.F.Statement .hvgoodAsserted := Laws.F.of_findings rfl
theorem Laws.F.hvgoodNegated : Laws.F.Statement .hvgoodNegated := Laws.F.of_findings rfl
theorem Laws.F.hvgoodTimeout : Laws.F.Statement .hvgoodTimeout := Laws.F.of_findings rfl
theorem Laws.F.railsInRegulation : Laws.F.Statement .railsInRegulation := Laws.F.of_findings rfl
theorem Laws.F.railOffTimer : Laws.F.Statement .railOffTimer := Laws.F.of_findings rfl
theorem Laws.F.boardLoopCheck (ohms : Nat) : Laws.F.Statement (.boardLoopCheck ohms) := Laws.F.of_findings rfl
theorem Laws.F.stampLoopCheck (ohms : Nat) : Laws.F.Statement (.stampLoopCheck ohms) := Laws.F.of_findings rfl
theorem Laws.F.chargerResistorFault (r : ChargerResistor) (ohms : Option Nat) : Laws.F.Statement (.chargerResistorFault r ohms) :=
  Laws.F.of_findings rfl
theorem Laws.F.valueResistorDrift (r : LiveResistor) (ohms : Option Nat) : Laws.F.Statement (.valueResistorDrift r ohms) :=
  Laws.F.of_findings rfl
theorem Laws.F.chargerPulse (mv : Nat) : Laws.F.Statement (.chargerPulse mv) := Laws.F.of_findings rfl
theorem Laws.F.dieHot (temp : Int) : Laws.F.Statement (.dieHot temp) := Laws.F.of_findings rfl
theorem Laws.F.quietEntry : Laws.F.Statement .quietEntry := Laws.F.of_findings rfl
theorem Laws.F.watchEntry (wake : Bool) : Laws.F.Statement (.watchEntry wake) := Laws.F.of_findings rfl
theorem Laws.F.wakeAsserted : Laws.F.Statement .wakeAsserted := Laws.F.of_findings rfl
theorem Laws.F.dozeAsserted (wake : Bool) : Laws.F.Statement (.dozeAsserted wake) := Laws.F.of_findings rfl
theorem Laws.F.dozeNegated : Laws.F.Statement .dozeNegated := Laws.F.of_findings rfl
theorem Laws.F.watchListenerAccept (c : Chan) (f : Frame) : Laws.F.Statement (.watchListenerAccept c f) :=
  Laws.F.of_findings rfl
theorem Laws.F.load (payload : List Byte) : Laws.F.Statement (.load payload) := Laws.F.of_findings rfl
theorem Laws.F.check (e : FuseEnv) : Laws.F.Statement (.check e) := Laws.F.of_findings rfl
theorem Laws.F.burn (arming : List Byte) (e : FuseEnv) : Laws.F.Statement (.burn arming e) :=
  Laws.F.of_findings rfl
theorem Laws.F.burnEnd (stop : Option (Nat × Bool)) : Laws.F.Statement (.burnEnd stop) := Laws.F.of_findings rfl
theorem Laws.F.read : Laws.F.Statement .read := Laws.F.of_findings rfl
theorem Laws.F.state (e : FuseEnv) : Laws.F.Statement (.state e) := Laws.F.of_findings rfl
theorem Laws.F.badCommand (code : Byte) : Laws.F.Statement (.badCommand code) := Laws.F.of_findings rfl
theorem Laws.F.busFrameReceived (c : Chan) (f : Frame) : Laws.F.Statement (.busFrameReceived c f) :=
  Laws.F.of_findings rfl
theorem Laws.F.letterCompletion (c : Chan) (tie : Bool) : Laws.F.Statement (.letterCompletion c tie) :=
  Laws.F.of_findings rfl
theorem Laws.F.busError (c : Chan) (e : BusError) : Laws.F.Statement (.busError c e) := Laws.F.of_findings rfl
theorem Laws.F.busOffRecoveryEnd (c : Chan) (nonce : BitVec 32) : Laws.F.Statement (.busOffRecoveryEnd c nonce) :=
  Laws.F.of_findings rfl
theorem Laws.F.stuckDominant (c : Chan) : Laws.F.Statement (.stuckDominant c) := Laws.F.of_findings rfl
theorem Laws.F.deadRecovery (c : Chan) : Laws.F.Statement (.deadRecovery c) := Laws.F.of_findings rfl
theorem Laws.F.layUpEnd (c : Chan) (dominant : Bool) : Laws.F.Statement (.layUpEnd c dominant) :=
  Laws.F.of_findings rfl
theorem Laws.F.integrationEnd (c : Chan) (nonce : BitVec 32) : Laws.F.Statement (.integrationEnd c nonce) :=
  Laws.F.of_findings rfl
theorem Laws.F.rollcallDelayEnd (c : Chan) : Laws.F.Statement (.rollcallDelayEnd c) := Laws.F.of_findings rfl
theorem Laws.F.rollcallWindowEnd (c : Chan) : Laws.F.Statement (.rollcallWindowEnd c) := Laws.F.of_findings rfl
theorem Laws.F.rateMatchTimeout (c : Chan) : Laws.F.Statement (.rateMatchTimeout c) := Laws.F.of_findings rfl
theorem Laws.F.frameStart (c : Chan) : Laws.F.Statement (.frameStart c) := Laws.F.of_findings rfl
theorem Laws.F.arbitrationLost (c : Chan) : Laws.F.Statement (.arbitrationLost c) := Laws.F.of_findings rfl
theorem Laws.F.txFrameEnd (c : Chan) : Laws.F.Statement (.txFrameEnd c) := Laws.F.of_findings rfl
theorem Laws.F.contextInactivity (c : Chan) (key : CtxKey) : Laws.F.Statement (.contextInactivity c key) :=
  Laws.F.of_findings rfl
theorem Laws.F.csFall (p : Port) : Laws.F.Statement (.csFall p) := Laws.F.of_findings rfl
theorem Laws.F.courierSync (p : Port) (sync : Byte) : Laws.F.Statement (.courierSync p sync) :=
  Laws.F.of_findings rfl
theorem Laws.F.courierLength (p : Port) (hdr : Vector Byte 11) : Laws.F.Statement (.courierLength p hdr) :=
  Laws.F.of_findings rfl
theorem Laws.F.csRise (p : Port) (rest : List Byte) (tie : Bool) : Laws.F.Statement (.csRise p rest tie) :=
  Laws.F.of_findings rfl
theorem Laws.F.sealCheck : Laws.F.Statement .sealCheck := Laws.F.of_findings rfl
theorem Laws.F.letterWalk (race : AckRace) (found : Findings) : Laws.F.Statement (.letterWalk race found) :=
  Laws.F.of_findings rfl
theorem Laws.F.earmarkRequest (who : Asker) : Laws.F.Statement (.earmarkRequest who) := Laws.F.of_findings rfl
theorem Laws.F.weighInTimer : Laws.F.Statement .weighInTimer := Laws.F.of_findings rfl
theorem Laws.F.vholdBelowGuard (mv : Nat) : Laws.F.Statement (.vholdBelowGuard mv) := Laws.F.of_findings rfl
theorem Laws.F.weighInEnd (v0 dv ihv : Nat) : Laws.F.Statement (.weighInEnd v0 dv ihv) := Laws.F.of_findings rfl
theorem Laws.F.partCopyStart (job : Nat) : Laws.F.Statement (.partCopyStart job) := Laws.F.of_findings rfl
theorem Laws.F.partCopyEnd (job : Nat) : Laws.F.Statement (.partCopyEnd job) := Laws.F.of_findings rfl
theorem Laws.F.laneGrant (loop : Nat) : Laws.F.Statement (.laneGrant loop) := Laws.F.of_findings rfl
theorem Laws.F.panelFrameStart (found : Findings) : Laws.F.Statement (.panelFrameStart found) :=
  Laws.F.of_findings rfl
theorem Laws.F.roundWriteBackEnd (lane : Fin 64) : Laws.F.Statement (.roundWriteBackEnd lane) :=
  Laws.F.of_findings rfl
theorem Laws.F.remapCopyEnd : Laws.F.Statement .remapCopyEnd := Laws.F.of_findings rfl
theorem Laws.F.releaseInstant (cut : Option Nat) : Laws.F.Statement (.releaseInstant cut) :=
  Laws.F.of_findings rfl
theorem Laws.F.stageExpiry (lane : Fin 64) : Laws.F.Statement (.stageExpiry lane) := Laws.F.of_findings rfl
theorem Laws.F.stagedEarmarkLapse (job : Nat) : Laws.F.Statement (.stagedEarmarkLapse job) :=
  Laws.F.of_findings rfl
theorem Laws.F.weighHoldExpiry (weigh : Nat) : Laws.F.Statement (.weighHoldExpiry weigh) :=
  Laws.F.of_findings rfl
theorem Laws.F.rotationEnd (counts : Vector (BitVec 12) 16) (die : Int) : Laws.F.Statement (.rotationEnd counts die) :=
  Laws.F.of_findings rfl
theorem Laws.F.stalenessDeadline (t : Tenant) : Laws.F.Statement (.stalenessDeadline t) := Laws.F.of_findings rfl
theorem Laws.F.cautionPeriodEnd (t : Tenant) : Laws.F.Statement (.cautionPeriodEnd t) := Laws.F.of_findings rfl
theorem Laws.F.suspensionEnd (t : Tenant) : Laws.F.Statement (.suspensionEnd t) := Laws.F.of_findings rfl
theorem Laws.F.peekSnapshot (job : Nat) (found : Findings) : Laws.F.Statement (.peekSnapshot job found) :=
  Laws.F.of_findings rfl
theorem Laws.F.wavesetInstallStart : Laws.F.Statement .wavesetInstallStart := Laws.F.of_findings rfl
theorem Laws.F.wavesetReadbackEnd (matched : Bool) : Laws.F.Statement (.wavesetReadbackEnd matched) :=
  Laws.F.of_findings rfl
theorem Laws.F.stampFallback (n : Fin 32) : Laws.F.Statement (.stampFallback n) := Laws.F.of_findings rfl
theorem Laws.F.stampFieldUpdate : Laws.F.Statement .stampFieldUpdate := Laws.F.of_findings rfl
theorem Laws.F.lcdVoltageDoze (die : Int) : Laws.F.Statement (.lcdVoltageDoze die) := Laws.F.of_findings rfl
theorem Laws.F.systemRowsRender : Laws.F.Statement .systemRowsRender := Laws.F.of_findings rfl
theorem Laws.F.noticeLoad : Laws.F.Statement .noticeLoad := Laws.F.of_findings rfl
theorem Laws.F.rependTest (g : Fin 8) : Laws.F.Statement (.rependTest g) := Laws.F.of_findings rfl
theorem Laws.F.energyShortTimer : Laws.F.Statement .energyShortTimer := Laws.F.of_findings rfl
theorem Laws.F.renderWaitTimer (tile : Fin 33) : Laws.F.Statement (.renderWaitTimer tile) :=
  Laws.F.of_findings rfl
theorem Laws.F.tapInstruction (op : TapOp) (ir : Byte) : Laws.F.Statement (.tapInstruction op ir) :=
  Laws.F.of_findings rfl
theorem Laws.F.railDisableEnd : Laws.F.Statement .railDisableEnd := Laws.F.of_findings rfl
theorem Laws.F.resetSequenceEnd : Laws.F.Statement .resetSequenceEnd := Laws.F.of_findings rfl

end Sys2Proof
end

