-- ==== Sys2Proof/Laws/Reads.lean ====
section
/-! SUPPORT. What reading the store's words does where some have been found damaged (R621, R622). -/
namespace Sys2Proof.Machine

@[simp] theorem State.find_none (s : State) : s.find ⟨[], []⟩ = s := by
  simp [State.find]

theorem dropFound_none (f : Findings) (p : Nat → Bool) (h : ((f.lost ++ f.fixed).all fun o => !(p o)) = true) :
    dropFound f p = f := by
  simp only [List.all_eq_true, List.mem_append] at h
  simp only [dropFound]
  rw [List.filter_eq_self.2 fun o ho => h o (.inl ho), List.filter_eq_self.2 fun o ho => h o (.inr ho)]

theorem filter_none {α : Type} (l : List α) (p : α → Bool) (h : ∀ a ∈ l, p a = false) : l.filter p = [] := by
  simpa [List.filter_eq_nil_iff] using h

/-- A command that reads no damaged word changes nothing by reading. -/
theorem State.readWords_intact {s : State} {frame : Bool} {also : List (Fin 64)} {reads : Nat → Bool}
    (h : s.store.intact reads = true) : s.readWords frame also reads = s := by
  have h' := h
  simp only [Store.intact, List.all_eq_true, List.mem_append, Bool.not_eq_true'] at h'
  simp only [State.readWords, filter_none _ _ fun o ho => h' o (.inl ho), filter_none _ _ fun o ho => h' o (.inr ho),
    dropFound_none s.store.unread _ h, List.foldl_nil]

theorem State.takeFindings_none {s : State} {frame : Bool} {also : List (Fin 64)} {reads : Nat → Bool}
    (h : s.store.intact reads = true) : s.takeFindings frame also reads ⟨[], []⟩ = s := by
  rw [State.takeFindings, State.find_none, State.readWords_intact h]

/-- The one damaged word that a command reads is lost. -/
theorem State.readWords_one {s : State} {frame : Bool} {also : List (Fin 64)} {reads : Nat → Bool} {a : Nat}
    (h : s.store.unread = ⟨[a], []⟩) (hr : reads (s.store.served a) = true) : s.readWords frame also reads
      = State.uncorrectable { s with store := { s.store with unread := ⟨[], []⟩ } } frame also a := by
  simp [State.readWords, h, dropFound, hr]

/-- The one corrected word that a command reads is written back (R621). -/
theorem State.readWords_back {s : State} {frame : Bool} {also : List (Fin 64)} {reads : Nat → Bool} {a : Nat}
    (h : s.store.unread = ⟨[], [a]⟩) (hr : reads (s.store.served a) = true) : s.readWords frame also reads
      = { s with store := ({ s.store with unread := ⟨[], []⟩ } : Store).putBack (s.store.served a) } := by
  have e : ({ s.store with unread := ⟨[], []⟩ } : Store).served a = s.store.served a := rfl
  simp [State.readWords, h, dropFound, hr, e]

/-- What a loss may change: the store, the torn rectangles, the rounds' lanes, the waveform set, and the notice desk. -/
theorem State.uncorrectable_frame (s : State) (frame : Bool) (also : List (Fin 64)) (off : Nat) :
    let t := s.uncorrectable frame also off
    t = { s with store := t.store, torn := t.torn, board := { s.board with lanes := t.board.lanes }, waves := t.waves
                 desk := t.desk } := by
  simp only [State.uncorrectable]
  split
  · rfl
  · split
    · split <;> rfl
    · rfl
    · rfl
    · rfl
    · rfl
    · split <;> rfl
    · split
      · rfl
      · split <;> rfl
    · split <;> rfl
    · split <;> rfl

end Sys2Proof.Machine
end

