-- ==== Sys2Proof/Tests/Slice0.lean ====
section
/-! SUPPORT. Checks of the definitions on small inputs, and for every statement that has hypotheses a state and operands
that meet them, clause by clause. -/
namespace Sys2Proof.Tests
open Sys2Proof Sys2Proof.Machine

-- One theorem after another: side by side, the kernel evaluations of this file take more memory than the check allows.
set_option Elab.async false

/-! ## States -/

/-- An active CONFIGURED node: every coded strap at code 0 but BUSRATE 4 and LAYOUT 14 (no tiles), ROM class 0 in force, channel A
error-active, channel B unused, ports live, every tenant enabled with a quota of 16 and every right. -/
def live : State :=
  { State.reset with
    mode := .active
    clock := { State.reset.clock with src := .pll, uptime := 100000, running := true }
    start := { cause := .powerUp, fullCheck := true, strapped := true, fused := true, quickChecked := true,
               held := false, inletsOpen := true, announced := true, rotated := true }
    setup := { Setup.initial with codes := #v[some 0, some 1, some 4, some 0, some 0, some 14, some 0, some 0, some 0,
                                              some 0, some 0, some 0, some 0] }
    fuses := { Fuses.initial with
      life := .configured
      tenants := Vector.replicate 32 { TenantCfg.disabled with enable := true, rights := 0xFF, quota := 16 } }
    chanA := { Channel.initial with st := .errorActive }
    chanB := { Channel.initial with st := .unused }
    portA := { Courier.initial with live := true }
    portB := { Courier.initial with live := true }
    waves := { State.reset.waves with inForce := .rom 0 } }

/-- The same node in another mode. -/
def inMode (m : Mode) : State := { live with mode := m }

/-- The same node with another channel A. -/
def withA (f : Channel → Channel) : State := { live with chanA := f live.chanA }

/-- The same node with these letters and rounds, in order position. -/
def withJobs (js : List Job) : State :=
  { live with desks := { live.desks with jobs := js, order := js.map (·.id), nextJob := 100 } }

/-- The same node with lane `i` taken. -/
def withLane (s : State) (i : Fin 64) (l : Lane) : State :=
  { s with board := { s.board with lanes := s.board.lanes.set i l } }

/-- A letter of kind `k` from tenant `t` on channel A, without a seal. -/
def letter (t : Tenant) (k : BitVec 5) (body : List Byte) : Letter :=
  ⟨.channel .a, mkIdent 0 0 0 0 t k 0, [1, 0, 7, 0] ++ leBytes body.length 4 ++ body⟩

/-- The job of a letter. -/
def jobOf (i : Nat) (l : Letter) (st : JobState) : Job := Job.new i .letter (some l) st 1

/-- A POST of tenant 1 over ten pixels by ten, with box 3 and tag `g`. -/
def post (g : Nat) : Letter :=
  letter 1 1 (leBytes 3 2 ++ leBytes 0 2 ++ leBytes 0 2 ++ leBytes 10 2 ++ leBytes 10 2 ++ [0, 2] ++ leBytes g 2 ++ [0, 0]
    ++ List.replicate 50 0x11)

def box10 : Rect := ⟨0, 0, 9, 9⟩

/-- Lane of ten rows for job `j`. -/
def lane (st : LaneState) (j : Nat) : Lane :=
  { Lane.empty with st := st, job := j, rect := box10, got := List.replicate 10 0, prev := List.replicate 10 0,
                    modeFrames := 4 }

/-! ## Well-formed commands -/

theorem test_wf_words : (Instr.quickCheckEnd ⟨[0, 8], [0x01CFFFF8]⟩).wf = true ∧ (Instr.quickCheckEnd ⟨[4], []⟩).wf = false
    ∧ (Instr.fullCheckEnd ⟨[], [0x01D00000]⟩).wf = false ∧ (Instr.panelFrameStart ⟨[8], [8]⟩).wf = false
    ∧ (Instr.letterWalk ⟨true, 2⟩ ⟨[], [12]⟩).wf = false ∧ (Instr.peekSnapshot 0 ⟨[0x01D00008], []⟩).wf = false := by decide

theorem test_wf_frames :
    (Instr.busFrameReceived .a ⟨true, false, true, 0x1FFFFFFF, List.replicate 64 0, true⟩).wf = true
    ∧ (Instr.busFrameReceived .a ⟨false, false, false, 0x800, [], false⟩).wf = false
    ∧ (Instr.busFrameReceived .a ⟨true, true, false, 0, [1], false⟩).wf = false
    ∧ (Instr.busFrameReceived .a ⟨true, true, true, 0, [], false⟩).wf = false
    ∧ (Instr.busFrameReceived .b ⟨true, false, false, 0, List.replicate 12 0, false⟩).wf = false
    ∧ (Instr.busFrameReceived .b ⟨true, false, true, 0, List.replicate 9 0, false⟩).wf = false
    ∧ (Instr.watchListenerAccept .a ⟨true, false, false, 0, [], true⟩).wf = false := by decide

theorem test_wf_askers : (Instr.earmarkRequest (.settling 15 47)).wf = true
    ∧ (Instr.earmarkRequest (.settling 16 0)).wf = false ∧ (Instr.earmarkRequest (.settling 0 48)).wf = false := by decide

theorem test_wf_cut : (Instr.releaseInstant (some 3072)).wf = true ∧ (Instr.releaseInstant (some 3073)).wf = false := by
  decide

/-! ## Check words, seals and tables -/

/-- The check values of CRC-16/CCITT-FALSE and CRC-32 over "123456789", as their definitions give them. -/
theorem test_crcs : crc16 [0x31, 0x32, 0x33, 0x34, 0x35, 0x36, 0x37, 0x38, 0x39] = 0x29B1
    ∧ crc32 [0x31, 0x32, 0x33, 0x34, 0x35, 0x36, 0x37, 0x38, 0x39] = 0xCBF43926 := by decide +kernel

/-- The S-box of FIPS 197 at 0x00 and 0x53, and a doubling that carries. -/
theorem test_sbox : sbox 0x00 = 0x63 ∧ sbox 0x53 = 0xED ∧ xtime 0x80 = 0x1B := by decide +kernel

/-- Table 2.2: the edges of the window of code 1, and a count between windows. -/
theorem test_windows : codeOfCount 362 = some 1 ∧ codeOfCount 382 = some 1 ∧ codeOfCount 361 = none
    ∧ codeOfCount 0 = some 0 ∧ codeOfCount 41 = none := by decide

/-- The fields of an identifier stand where Table 6.1 puts them. -/
theorem test_ident : mkIdent 5 3 2 0x41 17 0x14 9 = 0b10101110100000110001101001001
    ∧ idTenant 0x15D06349 = 17 ∧ idKind 0x15D06349 = 0x14 := by
  decide

/-! ## Supply, reset, cold start: hypotheses that hold -/

/-- A node whose hold-up has collapsed, with RESET# asserted or not. -/
def collapsedOff (low : Bool) : State :=
  { inMode .off with store := { Store.initial with collapsed := true }, fell := true, pins := { live.pins with resetLow := low } }

theorem witness_ColdStartsBegin :
    (∀ m, (inMode m).mode = m ∧ (inMode m).pins.resetLow = false)
    ∧ (let s := { inMode .off with pins := { live.pins with resetLow := true } }
       s.mode = .off ∧ s.pins.resetLow = true)
    ∧ ∀ low, (collapsedOff low).mode = .off ∧ (collapsedOff low).pins.vsys = true
        ∧ (collapsedOff low).fell = true ∧ (collapsedOff low).pins.resetLow = low := by
  refine ⟨fun _ => ⟨rfl, rfl⟩, by decide, fun low => ?_⟩
  cases low <;> decide

theorem witness_ColdStartAndTheNoticeDesk :
    ((inMode .off).mode = .off ∧ (inMode .off).pins.resetLow = false)
    ∧ (inMode .inReset).mode = .inReset ∧ (inMode .doze).mode = .doze := by decide

def copyingPart : Part := ⟨box10, .copying, [], 4⟩

/-- A POST of tenant 1 that is being copied, with its earmark. -/
def copyingJob : Job :=
  { jobOf 5 (post 0) .committing with rect := some box10, mode := 2, parts := [copyingPart], started := true
                                      earmark := some ⟨1000, 0, 0, none, none⟩ }

theorem witness_ResetIsEntered :
    (live.mode ≠ .off ∧ live.mode ≠ .inReset ∧ live.shutting = false ∧ live.board.allFree = true ∧ live.copying = false
      ∧ live.store.wearStored = true)
    ∧ (∀ c ∈ [Charger.on, .paused, .pulse, .off, .stopped], let s : State := { live with energy := { live.energy with charger := c } }
       s.energy.charger = c ∧ s.mode ≠ .inReset ∧ s.discharging = false ∧ s.board.allFree = true ∧ s.copying = false)
    ∧ (let s := withJobs [copyingJob]
       s.mode ≠ .off ∧ s.mode ≠ .inReset ∧ s.shutting = false ∧ (s.board.allFree = false ∨ s.copying = true))
    ∧ (let s := { withJobs [copyingJob] with closing := true }
       s.mode ≠ .off ∧ s.mode ≠ .inReset ∧ s.shutting = true ∧ s.copying = true)
    ∧ (let s := { live with resetClosing := true, pins := { live.pins with resetLow := true } }
       s.resetClosing = true ∧ s.closing = false ∧ s.discharging = false ∧ s.mustFinish = false ∧ s.pins.resetLow = true)
    ∧ (let s := { live with resetClosing := true }
       s.resetClosing = true ∧ s.closing = false ∧ s.discharging = false ∧ s.mustFinish = false
        ∧ s.pins.resetLow = false) := by decide

/-- A node in closing time, with or without FUSEEN. -/
def closingTime (fuseen : Bool) : State := { live with closing := true, setup := { live.setup with fuseen := fuseen } }

theorem witness_SupplyLossEndsInOff :
    (∀ m, (inMode m).mode = m ∧ (inMode m).closing = false ∧ (inMode m).discharging = false
      ∧ (inMode m).board.allFree = true)
    ∧ (∀ f, (closingTime f).closing = true ∧ (closingTime f).discharging = false ∧ (closingTime f).mustFinish = false
      ∧ (closingTime f).setup.fuseen = f ∧ (closingTime f).wavesetWaiting = false ∧ (closingTime f).store.wearStored = true
      ∧ (closingTime f).store.wearFar 10 = true ∧ (closingTime f).store.slotOpen = true)
    ∧ ({ live with discharging := true } : State).discharging = true := by
  refine ⟨fun m => ⟨rfl, rfl, rfl, by cases m <;> decide⟩, fun f => ?_, rfl⟩
  cases f <;> decide

/-- A node that takes HVGOOD from its source, with the rails in a state. -/
def sourced (r : Rails) : State :=
  { live with board := { live.board with rails := r }, setup := { live.setup with hvsrc := true } }

theorem witness_CollapseStopsEverything :
    (∀ r, (sourced r).board.rails = r ∧ (sourced r).setup.hvsrc = true ∧ (sourced r).discharging = false
      ∧ (sourced r).awake = true ∧ (sourced r).store.wearFar 10 = true ∧ (sourced r).store.slotOpen = true
      ∧ (sourced r).midWrite = false)
    ∧ (live.board.rails = .off ∧ (withJobs [copyingJob]).copying = true ∧ (closingTime false).shutting = true)
    ∧ (live.midWrite = false ∧ live.writesBack = false ∧ (withJobs [copyingJob]).midWrite = true)
    ∧ 3072 ≤ 3072 := by
  refine ⟨fun r => ⟨rfl, rfl, rfl, by cases r <;> decide, rfl, rfl, rfl⟩, by decide, by decide, by decide⟩

/-! ## Start-up -/

/-- A node before strap sampling, uptime counting or not, with a charger. -/
def unsampled (running : Bool) (c : Charger) : State :=
  { State.reset with clock := { State.reset.clock with running := running }
                     energy := { State.reset.energy with charger := c } }


theorem counters_fit : State.reset.countersFit := by
  intro i
  revert i
  decide

/-- A node whose straps have been sampled, with or without FUSEEN. -/
def strapped (fuseen : Bool) : State :=
  { State.reset with start := { State.reset.start with strapped := true }
                     setup := { live.setup with fuseen := fuseen } }

theorem witness_StrapsAndFusesAreRead :
    (∀ running, ∀ c ∈ [Charger.off, .stopped], let s := unsampled running c
      s.mode = .coldStart ∧ s.start.strapped = false ∧ s.start.held = false ∧ s.discharging = false
        ∧ s.recallsRest = true ∧ s.energy.charger = c ∧ s.clock.running = running ∧ s.store.collapsed = false
        ∧ s.store.plain 40 = true)
    ∧ (strapped false).mode = .coldStart ∧ (strapped false).start.strapped = true
    ∧ (strapped false).start.fused = false ∧ (strapped false).setup.fuseen = false
    ∧ (strapped false).recallsRest = true ∧ State.reset.countersFit := by
  refine ⟨by decide, by decide, by decide, by decide, by decide, by decide, ?_⟩
  exact counters_fit

theorem witness_FuseModeOpens : (strapped true).mode = .coldStart ∧ (strapped true).start.strapped = true
    ∧ (strapped true).start.fused = false ∧ (strapped true).setup.fuseen = true := by decide

/-- A node whose fuses have been read, waiting for the PLL. -/
def fusedStart (fuseen : Bool) : State :=
  { strapped fuseen with start := { State.reset.start with strapped := true, fused := true } }

theorem witness_UptimeAndBootSerialBegin : ∀ e, (fusedStart e).clocked = true ∧ (fusedStart e).clock.src = .start
    ∧ (fusedStart e).clock.waking = false ∧ (fusedStart e).clock.running = false ∧ (fusedStart e).start.fused = true
    ∧ (fusedStart e).setup.fuseen = e ∧ (fusedStart e).recallsRest = true ∧ (fusedStart e).store.collapsed = false
    ∧ (fusedStart e).store.plain 40 = true ∧ (fusedStart e).start.strapped = true
    ∧ State.reset.clocked = true ∧ State.reset.start.strapped = false
    ∧ (let s : State := { fusedStart true with store := { Store.initial with collapsed := true } }
       s.store.collapsed = true ∧ s.setup.fuseen = true ∧ s.clocked = true) := by decide

theorem witness_ChannelsLeaveAndReturn : (live.chan .a).st = .errorActive ∧ live.mode ≠ .watch
    ∧ ((withA fun x => { x with st := .offBus }).chan .a).st = .offBus
    ∧ ((withA fun x => { x with st := .watchListener }).chan .a).st = .watchListener
    ∧ (live.chan .b).st ≠ .offBus ∧ (live.chan .b).st ≠ .watchListener ∧ Chan.b ≠ Chan.a := by decide

/-- A node whose roll calls are not over, with one channel integrating and one error-active. -/
def unannounced : State :=
  { withA (fun x => { x with st := .integrating }) with
    chanB := { Channel.initial with st := .errorActive }, start := { live.start with announced := false } }

/-- A node on the limp clock with one paused round and the rails in a state. -/
def limping (r : Rails) : State :=
  withLane { live with clock := { live.clock with src := .limp }, board := { live.board with rails := r } } 0
    (lane .paused 5)

theorem witness_LimpClockComesAndGoes :
    (∀ f, ({ live with board := { live.board with framing := f } } : State).board.framing = f
      ∧ ({ live with board := { live.board with framing := f } } : State).clocked = true) ∧ live.clock.src = .pll
    ∧ (unannounced.clocked = true ∧ unannounced.clock.src = .pll ∧ unannounced.start.announced = false
        ∧ unannounced.start.quickChecked = true ∧ unannounced.shutting = false ∧ unannounced.desks.recalls = []
        ∧ (unannounced.chan .a).st = .integrating ∧ (unannounced.chan .b).st = .errorActive)
    ∧ live.start.announced = true
    ∧ (let s : State := { live with clock := { live.clock with src := .start } }
       s.clocked = true ∧ s.clock.src = .start)
    ∧ (let s := withLane { live with board := { live.board with framing := true } } 0 (lane .running 5)
       s.board.framing = true ∧ (s.board.lanes[(0 : Fin 64)]).st = .running
        ∧ (s.board.lanes[(0 : Fin 64)]).rect.y0 ≤ 9 ∧ 9 ≤ (s.board.lanes[(0 : Fin 64)]).rect.y1)
    ∧ (∀ r, (limping r).clocked = true ∧ (limping r).clock.src = .limp ∧ (limping r).energy.weighs = [] ∧ (limping r).askers = []
        ∧ (limping r).pins.vio = true ∧ (limping r).board.rails = r ∧ ((limping r).board.lanes[(0 : Fin 64)]).st = .paused) :=
  ⟨fun _ => ⟨rfl, rfl⟩, rfl, by decide, rfl, ⟨rfl, rfl⟩, by decide, fun _ => ⟨rfl, rfl, rfl, rfl, rfl, rfl, rfl⟩⟩

theorem witness_WakeCompletes : ∀ m ∈ [Mode.quiet, .active],
    let s := { inMode m with clock := { live.clock with src := .start, waking := true } }
    s.mode = m ∧ s.clocked = true ∧ s.clock.src = .start ∧ s.clock.waking = true ∧ s.pins.vio = true := by decide

/-- A node whose uptime counts, before the quick check. -/
def unchecked (full : Bool) : State :=
  { live with mode := .coldStart, start := { State.reset.start with strapped := true, fused := true, fullCheck := full }
              chanA := Channel.initial, chanB := Channel.initial, portA := Courier.initial, portB := Courier.initial }

theorem witness_ChecksOpenTheInlets :
    (∀ f, (unchecked f).mode = .coldStart ∧ (unchecked f).shutting = false ∧ (unchecked f).clock.running = true
      ∧ (unchecked f).start.fused = true ∧ (unchecked f).start.quickChecked = false
      ∧ (unchecked f).setup.fuseen = false ∧ (unchecked f).start.fullCheck = f ∧ (unchecked f).desks.recalls = [])
    ∧ (let s := { unchecked true with start := { (unchecked true).start with quickChecked := true } }
       s.mode = .coldStart ∧ s.shutting = false ∧ s.start.quickChecked = true ∧ s.start.fullCheck = true
        ∧ s.chanA.st = .reset ∧ s.chanB.st = .reset) := by decide

theorem witness_PortsFollowSettlingAndVio :
    (let s := withA fun x => { x with settling := true }
     (s.chan .a).settling = true ∧ s.start.inletsOpen = true)
    ∧ (let s := { unchecked true with chanA := { Channel.initial with settling := true } }
       let z := { s with closing := true }
       (s.chan .a).settling = true ∧ s.start.inletsOpen = false ∧ s.shutting = false
        ∧ (z.chan .a).settling = true ∧ z.start.inletsOpen = false ∧ z.shutting = true)
    ∧ (∀ m, m = .active ∨ m = .quiet → (inMode m).mode ≠ .off ∧ (inMode m).start.held = false
        ∧ (inMode m).start.inletsOpen = true ∧ (inMode m).clock.waking = false ∧ (inMode m).clock.src ≠ .limp)
    ∧ (unannounced.mode ≠ .off ∧ unannounced.start.announced = false ∧ unannounced.start.quickChecked = true)
    ∧ ({ State.reset with start := { State.reset.start with held := true } } : State).start.held = true := by
  refine ⟨by decide, by decide, fun m h => ?_, by decide, by decide⟩
  rcases h with rfl | rfl <;> decide

/-- R571, R591: a weigh-in that runs when the wake ends at the lock timeout is abandoned. -/
theorem test_lock_timeout : (match exec .pllLockTimeout { live with
      clock := { live.clock with src := .start, waking := true }
      energy := { live.energy with weighing := true, charger := .paused } } with
    | .next t => (t.energy.weighing, decide (t.energy.charger = .on))
    | _ => (true, false)) = (false, true) := by decide +kernel

/-- The words of the boot serial are sound, with other words damaged or none. -/
theorem witness_boot_words : (∀ e, (fusedStart e).store.intact bootWord = true)
    ∧ (unsampled true .off).store.intact bootWord = true
    ∧ ({ Store.initial with unread := ⟨[ringABase], [0]⟩ } : Store).intact bootWord = true := by decide +kernel

/-! ## Rails, loops, resistors, die sensor -/

/-- The board with its rails in a state, every lane FREE since 99,500 ms. -/
def withRails (r : Rails) : State :=
  { live with board := { live.board with rails := r, freeSince := some 99500 } }

theorem witness_RailsFollowTheSequence : (∀ r, (withRails r).board.rails = r)
    ∧ (withRails .on).board.allFree = true ∧ (withRails .on).board.freeSince = some 99500
    ∧ 99500 + 500 ≤ (withRails .on).clock.uptime :=
  ⟨fun _ => rfl, by decide⟩

theorem witness_HvgoodTimeoutDisablesTheBoard : (withRails .waitGood).board.rails = .waitGood
    ∧ (withRails .waitGood).pins.hvgood = false ∧ (withRails .waitGood).mode ≠ .watch
    ∧ (withRails .waitGood).board.hvenAt + 50 ≤ (withRails .waitGood).clock.uptime
    ∧ (withRails .waitGood).desks.recalls = []
    ∧ (let s := { withRails .waitGood with board := { (withRails .waitGood).board with hvenAt := 99951 } }
       s.clock.uptime < s.board.hvenAt + 50) := by decide

/-- A node of PCLASS 15, which has no board. -/
def boardless : State := { live with setup := { live.setup with codes := live.setup.codes.set 4 (some 15) } }

theorem witness_CrackLoops : (200 ≤ 200 ∧ 200 < 201)
    ∧ (∀ r, r = .enabling ∨ r = .waitGood ∨ r = .on → (withRails r).board.rails = r
        ∧ (withRails r).boardSize.isSome = true ∧ (withRails r).board.loopOpen = false ∧ (withRails r).desks.recalls = [] ∧ (withRails r).mode ≠ .watch)
    ∧ boardless.boardSize = none
    ∧ (∀ m, m = .active ∨ m = .quiet ∨ m = .coldStart ∨ m = .watch →
        (inMode m).mode = m ∧ (inMode m).stamp.loopOpen = false) :=
  ⟨by decide, fun _ _ => ⟨rfl, rfl, rfl, rfl, (nomatch ·)⟩, by decide, fun _ _ => ⟨rfl, rfl⟩⟩

/-- The node with its charger in a state. -/
def charging (c : Charger) : State := { live with energy := { live.energy with charger := c } }

theorem witness_LiveResistorsAndTheCharger :
    (∀ c, (charging c).energy.charger = c ∧ (charging c).recallsRest = true ∧ (charging c).mode ≠ .inReset)
    ∧ (∀ c, let s : State := { charging c with mode := .inReset }
        s.mode = .inReset ∧ s.energy.charger = c)
    ∧ (100 * 21824 < 97 * 22500 ∧ 103 * 80000 < 100 * 82401 ∧ 100 * 4849 < 97 * 5000 ∧ 103 * 100000 < 100 * 103001)
    ∧ ({ live with stamp := { live.stamp with dozing := true } } : State).stamp.dozing = true
    ∧ live.mode ≠ .off ∧ live.mode ≠ .inReset ∧ live.start.strapped = true
    ∧ (let s := { live with setup := { live.setup with live := #v[none, none, none, none, none, some 100000] } }
       s.setup.live[5] = some 100000 ∧ 26000 ≤ 52000 ∧ 100000 ≤ 100000)
    ∧ (let v := (charging .pulse).vholdTarget
       98 * v < 100 * v ∧ 100 * 0 ≤ 98 * v) :=
  ⟨fun _ => ⟨rfl, rfl, (nomatch ·)⟩, fun _ => ⟨rfl, rfl⟩, by decide⟩

theorem witness_DieSensor (limit : Int) : live.mode ≠ .off ∧ live.mode ≠ .inReset ∧ live.mode ≠ .doze
    ∧ (live.dieHot = false ∧ 16 * limit < 16 * limit + 1 ∧ 16 * limit ≤ 16 * limit)
    ∧ (let s : State := { live with dieHot := true }
       s.dieHot = true ∧ 16 * (limit - 5) ≤ 16 * (limit - 5) ∧ 16 * (limit - 5) < 16 * (limit - 5) + 1) := by
  refine ⟨by decide, by decide, by decide, ⟨rfl, ?_, ?_⟩, rfl, ?_, ?_⟩ <;> omega

/-! ## Power modes and fuse mode -/

/-- A quiet node that may go on to WATCH, or to DOZE, with its charger on. -/
def quiet (doze : Bool) : State :=
  { charging .on with mode := .quiet, pins := { live.pins with dozeLow := doze }
                      idle := { live.idle with watchMs := 10000 } }

/-- A reading of this boot above its high limit. -/
def alarmed : Reading :=
  { body := [5, 0, 0, 0, 0, 0, 60, 0] ++ List.replicate 36 0, time := some 99000, stale := false, trend := [] }

def alarming : Store := { Store.initial with readings := Store.initial.readings.set 0 (some alarmed) }

theorem witness_QuietWatchDozeAndTheFlags :
    (let s := { live with idle := { live.idle with quietMs := 100 } }
     s.quietOk = true ∧ 100 ≤ s.idle.quietMs)
    ∧ (∀ d, (quiet d).mode = .quiet ∧ (quiet d).watchOk = true ∧ 10000 ≤ (quiet d).idle.watchMs
        ∧ (quiet d).pins.dozeLow = d ∧ (quiet d).store.wearStored = true ∧ (quiet d).energy.charger = .on)
    -- the page of a count to write is worn out, and no further remap is made
    ∧ (let s := { quiet true with store := { Store.initial with
         wear := [(0, ⟨1, 0, []⟩), (6180, ⟨9000000000, 9000000000, []⟩)], retired := [6178] } }
       s.mode = .quiet ∧ s.watchOk = true ∧ (∀ i : Fin 64, (s.desk.sources[i]).counter ≤ 255) ∧ s.store.retired = [6178]
        ∧ s.enterWatch.store.retired = [6178, 6180])
    ∧ (inMode .watch).mode = .watch ∧ live.quietOk = true ∧ live.idle.quietMs < 100 ∧ live.mode ≠ .watch
    -- released, failing as a whole, and each on its own condition
    ∧ ((inMode .doze).mode = .doze ∧ (inMode .off).mode = .off ∧ State.reset.start.strapped = false
        ∧ ({ live with resetClosing := true } : State).resetClosing = true
        ∧ ({ live with setup := { live.setup with codes := live.setup.codes.set 12 none } } : State).setup.codes[12] = none)
    ∧ (live.mode = .active ∧ live.pins.resetLow = false ∧ live.resetClosing = false ∧ live.start.strapped = true
        ∧ live.setup.codes[12] = some 0 ∧ live.setup.unsorted = false ∧ live.fuses.fault = false
        ∧ live.clock.src ≠ .limp ∧ live.start.quickChecked = true)
    ∧ ({ live with clock := { live.clock with src := .limp } } : State).clock.src = .limp
    ∧ alarming.readings[(0 : Tenant)] = some alarmed := by decide +kernel

/-- A frame of route 0 to node 1 (the node's own number), from tenant 0, of kind POST. -/
def frame (data : List Byte) : Frame := ⟨true, false, true, mkIdent 0 0 0 1 0 1 0, data, false⟩

def watching : State := { inMode .watch with chanA := { Channel.initial with st := .watchListener } }

/-- A node that wakes: channel B has kept this frame, channel A still listens. -/
def wakening (f : Frame) : State :=
  { watching with mode := .quiet, clock := { live.clock with waking := true }
                  chanB := { Channel.initial with st := .watchListener, heldFrame := some f } }

theorem witness_WatchIsWokenByPinAndFrame : watching.mode = .watch ∧ (watching.chan .a).st = .watchListener
    ∧ (watching.chan .a).heldFrame = none ∧ (frame []).ext = true ∧ (frame []).remote = false ∧ (frame []).own = false
    ∧ watching.classical = false ∧ watching.filter (frame []).ident = .accept 0 false
    ∧ ((wakening (frame [])).mode ≠ .watch ∧ (wakening (frame [])).clock.waking = true
        ∧ ((wakening (frame [])).chan .a).st = .watchListener ∧ ((wakening (frame [])).chan .a).heldFrame = none
        ∧ ((wakening (frame [])).chan (Chan.other .a)).heldFrame = some (frame [])
        ∧ (wakening (frame [])).filter (frame []).ident = .accept 0 false)
    ∧ ((wakening (frame [1])).chan (Chan.other .a)).heldFrame ≠ some (frame [])
    ∧ ({ frame [] with ext := false } : Frame).ext = false ∧ ({ frame [] with remote := true } : Frame).remote = true
    ∧ ({ frame [] with own := true } : Frame).own = true
    ∧ watching.filter (mkIdent 0 0 0 2 0 1 0) = .refuse := by decide

/-- A configured node in fuse mode. -/
def fusing : State :=
  { live with setup := { live.setup with fuseen := true }, fuses := { Fuses.initial with array := [(0x600, 7)] } }

/-- A fuse image that sets no bit: its header, whose CRC-32 the last four octets hold (the octets after it are 0). -/
def image : List Byte :=
  [0x50, 0x4C, 0x46, 0x49, 1, 0, 0, 0, 0, 8, 0, 0, 0, 0, 0, 0, 0, 0, 0, 0, 0, 0, 0, 0, 0, 0, 0, 0, 0xD3, 0xAD, 0x1D, 0xB6]

theorem test_image_sound : imageFault (Mem.read fuseDefault [(0x600, 7)]) image = none := by decide +kernel

theorem witness_FuseModeAnswers : fusing.setup.fuseen = true ∧ fusing.start.fused = true ∧ fusing.portA.live = true
    ∧ fusing.fuses.burning = none ∧ (List.replicate 2080 (0 : Byte)).length = 2080
    ∧ ([] : List Byte).length ≠ 2080 ∧ fusing.fuses.image = none
    ∧ imageFault fusing.fuses.byte [] = some 3 ∧ imageFault fusing.fuses.byte image = none
    ∧ ([] : List Byte) ≠ [0x42, 0x55, 0x52, 0x4E] := by decide +kernel

def loaded : Fuses := { fusing.fuses with image := some image }

theorem check_of_sound (f : Fuses) (e : FuseEnv) (m : List Byte) (hi : f.image = some m) (h : imageFault f.byte m = none) :
    f.checkResult e = (envFault e).getD 0 := by
  unfold Fuses.checkResult
  rw [hi]
  simp only [h]

theorem loaded_check (e : FuseEnv) : loaded.checkResult e = (envFault e).getD 0 :=
  check_of_sound loaded e image rfl test_image_sound

theorem witness_BurnFollowsItsOrder : loaded.checkResult ⟨6250, 0⟩ = 0 ∧ loaded.checkResult ⟨6249, 0⟩ ≠ 0
    ∧ Mem.wf fuseDefault loaded.array = true
    ∧ (({ Fuses.initial with burning := some ⟨[(0x612, 0), (0x600, 0)]⟩ } : Fuses).burning
        = some ⟨[(0x612, 0), (0x600, 0)]⟩) := by
  simp only [loaded_check]
  decide

/-! ## The bus -/

theorem witness_ReceiptsAndRefusals : live.mustSeal (live.answerTenant (.channel .a) 1) = false
    ∧ live.silentForBoot = false ∧ live.busMode = 0 ∧ live.discharging = false
    ∧ (let s := withA id
       let z : State := { s with setup := { s.setup with codes := s.setup.codes.set 3 (some 8) } }
       let w : State := { s with setup := { s.setup with codes := s.setup.codes.set 3 (some 12) } }
       z.busMode = 2 ∧ w.busMode = 3 ∧ w.silentForBoot = false)
    ∧ (post 0).rmode = 0 ∧ (⟨.courier .a, (post 0).ident, [1, 6]⟩ : Letter).rmode = 3
    ∧ (⟨.courier .a, (post 0).ident, [1, 2]⟩ : Letter).rmode = 1 ∧ stQuota ≠ stDelivered
    ∧ live.desks.refusalTotal < 64 ∧ (live.desks.standing[(1 : Tenant)]).refusals < 4
    ∧ (let x : Standing := { Standing.initial with refusals := 4 }
       let s : State := { live with desks := { live.desks with standing := live.desks.standing.set 1 x } }
       4 ≤ (s.desks.standing[(1 : Tenant)]).refusals) := by decide

/-- A node whose rate is classical (BUSRATE 3). -/
def classicalNode : State := { live with setup := { live.setup with codes := live.setup.codes.set 2 (some 3) } }

theorem witness_FramesAreSorted : (∀ st, ((withA fun x => { x with st := st }).chan .a).st = st)
    ∧ ((withA fun x => { x with settling := true }).chan .a).settling = true
    ∧ live.channelReady .a ∧ classicalNode.channelReady .a ∧ (frame []).fd = true ∧ classicalNode.classical = true
    ∧ live.classical = false ∧ classicalNode.shutting = false ∧ live.own = 1
    ∧ (let f : Frame := ⟨false, true, false, 5, [], false⟩
       let g : Frame := ⟨false, false, false, 5, [1], false⟩
       f.remote = true ∧ f.fd = false ∧ g.remote = false ∧ g.ext = false) ∧ (frame []).remote = false
    ∧ (frame []).ext = true ∧ ({ frame [] with own := true } : Frame).own = true
    ∧ idRoute (mkIdent 0 0 0 5 0 1 0) = 0 ∧ idNode (mkIdent 0 0 0 5 0 1 0) ≠ live.own
    ∧ idRoute (mkIdent 0 0 2 5 0 1 0) = 2 ∧ idKind (mkIdent 0 0 2 5 0 1 0) ≠ kRollcall
    ∧ idNode (mkIdent 0 0 2 5 0 1 0) ≠ live.own
    ∧ idNode (mkIdent 0 0 2 1 0 1 0) = live.own ∧ idRoute (mkIdent 0 0 3 1 0 1 0) = 3 := by
  refine ⟨fun _ => rfl, ?_⟩
  unfold State.channelReady
  decide

/-- Channel A while it sends its own ROLLCALL, with one bit error in this window. -/
def rolling : State := withA fun x =>
  { x with bufs := [⟨4, 9, mkIdent 7 7 2 1 0 kRollcall 0, .receipt, [0xC0], true⟩], sending := some 4, txSeq := 5
           roll := ⟨some 7, none, some 9, none, 1, false⟩ }

/-- A ROLLCALL under the node's own number, with a nonce of 7, that the node did not send. -/
def rollFrame : Frame := ⟨true, false, true, mkIdent 7 7 2 1 0 kRollcall 0, 0xC0 :: [1, 0, 0, 0, 8, 0, 0, 0, 7, 0, 0, 0], false⟩

theorem witness_DuplicateSilencesTheNode : live.channelReady .a ∧ live.duplicate = false ∧ live.listenOnly = false
    ∧ live.desks.recalls = [] ∧ (frame []).fd = true ∧ live.classical = false ∧ (frame []).remote = false
    ∧ (frame []).ext = true ∧ (frame []).own = false ∧ idRoute (mkIdent 0 0 2 1 0 0x10 0) = 2 ∧ idNode (mkIdent 0 0 2 1 0 0x10 0) = live.own
    ∧ idKind (mkIdent 0 0 2 1 0 0x10 0) ≠ kRollcall
    ∧ (rollFrame.remote = false ∧ rollFrame.ext = true ∧ rollFrame.own = false ∧ idRoute rollFrame.ident = 2
        ∧ idNode rollFrame.ident = live.own ∧ idKind rollFrame.ident = kRollcall
        ∧ rollFrame.data = 0xC0 :: rollFrame.data.tail ∧ (0xC0 : Byte).getLsbD 7 = true ∧ 12 ≤ rollFrame.data.tail.length
        ∧ (live.chan .a).roll.nonce ≠ some (BitVec.ofNat 32 (leNat rollFrame.data.tail 8 4))
        ∧ (rolling.chan .a).roll.nonce = some (BitVec.ofNat 32 (leNat rollFrame.data.tail 8 4)))
    ∧ rolling.channelReady .a ∧ (rolling.chan .a).sendsRoll = true ∧ (rolling.chan .a).roll.errors = 1
    ∧ rolling.shutting = false
    ∧ (let s := { live with closing := true, chanA := { live.chanA with sending := some 4 } }
       s.channelReady .a ∧ s.shutting = true ∧ (s.chan .a).sending ≠ none ∧ (s.chan .b).sending = none) := by
  unfold State.channelReady
  decide

/-- The open context of tenant 0 on channel A, with its first eight octets. -/
def ctx (n : BitVec 6) (done complete : Bool) (o : List Byte) : Context :=
  { key := idKey (frame []).ident, ident := (frame []).ident, isReserved := false, octets := o, nextSeq := n, lost := false,
    dropping := false, headerDone := done, claim := 1, buffers := 0, ownBuffers := 0, lastAt := 99500, complete := complete }

def withCtx (x : Context) : State := withA fun c => { c with ctxs := [x] }

/-- A header of a body of 66 octets, which a POST of ten pixels by ten has. -/
def header : List Byte := [1, 0, 7, 0, 66, 0, 0, 0]

theorem witness_FragmentsReassemble :
    let f := frame []
    live.channelReady .a ∧ live.classical = false ∧ idRoute f.ident = 0 ∧ idNode f.ident = live.own
    ∧ Kind.ofCode (idKind f.ident) = some .post ∧ reservedKind (idKind f.ident) = false ∧ idTenant f.ident = 0
    ∧ (live.chan .a).hasBuffer 0 false = true ∧ (live.chan .a).hasContext 0 false = true
    ∧ ((withCtx { ctx 1 false false [] with buffers := 48 }).chan .a).hasBuffer 0 false = false
    ∧ ((withCtx { ctx 1 false false [] with ownBuffers := 16 }).chan .a).hasBuffer 0 true = false
    ∧ ((withCtx { ctx 1 false false [] with ownBuffers := 16 }).chan .a).hasBuffer 0 false = true
    ∧ (live.chan .a).openCtx (idKey f.ident) = none
    ∧ idRoute (mkIdent 0 0 1 9 0 1 0) = 1 ∧ ((frame (0x80 :: header)).data = 0x80 :: header ∧ f.remote = false ∧ f.ext = true)
    ∧ ((0x80 : Byte).getLsbD 7 = true ∧ (0x80 : Byte).getLsbD 6 = false ∧ (0x80 : Byte).toNat % 64 = 0)
    ∧ ((0x85 : Byte).getLsbD 7 = true ∧ (0x85 : Byte).getLsbD 6 = false ∧ (0x85 : Byte).toNat % 64 ≠ 0)
    ∧ ((0x05 : Byte).getLsbD 7 = false ∧ (ctx 1 true false header).lost = false ∧ (ctx 1 true false header).dropping = false
        ∧ (ctx 1 true false header).headerDone = true ∧ (ctx 1 true false header).nextSeq = 1)
    ∧ (header.take 7).length < 8 ∧ 8 ≤ header.length ∧ headerFault .post header = none
    ∧ live.shelfTakes 0 (granules (hLetterLen header + 4)) = true
    ∧ (let s := withCtx (ctx 1 true false header)
       s.channelReady .a ∧ (s.chan .a).openCtx (idKey f.ident) = some (ctx 1 true false header)
        ∧ (s.chan .a).hasBuffer 0 false = true)
    ∧ (let s := withCtx (ctx 1 false false (header.take 3))
       s.channelReady .a ∧ (s.chan .a).openCtx (idKey f.ident) = some (ctx 1 false false (header.take 3))
        ∧ (s.chan .a).hasBuffer 0 false = true ∧ (header.take 3 ++ [7]).length < 8)
    ∧ ((0x01 : Byte).getLsbD 7 = false ∧ (0x01 : Byte).getLsbD 6 = false ∧ (0x01 : Byte).toNat % 64 = (1 : BitVec 6).toNat)
    ∧ (0x02 : Byte).toNat % 64 ≠ (1 : BitVec 6).toNat
    ∧ ((0x41 : Byte).getLsbD 6 = true ∧ (0x41 : Byte).toNat % 64 = (1 : BitVec 6).toNat)
    ∧ header.length ≤ hLetterLen (header ++ [0]) + 4 := by
  unfold State.channelReady
  decide

/-- The check word of a bare ENQUIRY header. -/
theorem test_check_word : crc32 [1, 0, 7, 0, 0, 0, 0, 0] = 3029200719 := by decide +kernel

/-- The 12 octets of an ENQUIRY: a header without a body, and its check word, sound or not. -/
def enquiryOctets (ok : Bool) : List Byte :=
  [1, 0, 7, 0, 0, 0, 0, 0] ++ leBytes (3029200719 + if ok then 0 else 1) 4

/-- A complete context of an ENQUIRY, or of a ROLLCALL. -/
def whole (k : BitVec 5) (ok : Bool) : Context :=
  { ctx 1 true true (enquiryOctets ok) with ident := mkIdent 0 0 0 1 0 k 0 }

theorem witness_LettersCompleteOrExpire :
    (let s := withCtx (ctx 1 true false header)
     let z := withCtx { ctx 1 true false (header.take 3) with dropping := true }
     let w := withCtx (ctx 1 true false (header.take 3))
     (s.chan .a).openCtx (idKey (frame []).ident) = some (ctx 1 true false header) ∧ 99500 + 500 ≤ s.clock.uptime
      ∧ idKind (frame []).ident ≠ kRollcall ∧ 4 ≤ header.length
      ∧ ((z.chan .a).openCtx (idKey (frame []).ident)).map (·.dropping) = some true
      ∧ ((w.chan .a).openCtx (idKey (frame []).ident)).map (·.dropping) = some false ∧ (header.take 3).length < 4)
    ∧ (∀ ok, ((withCtx (whole 11 ok)).chan .a).ctxs.find? (·.complete) = some (whole 11 ok)
        ∧ (withCtx (whole 11 ok)).shutting = false ∧ idKind (whole 11 ok).ident ≠ kRollcall
        ∧ (enquiryOctets ok).length = hLetterLen (enquiryOctets ok) + 4
        ∧ (leNat (enquiryOctets ok) 8 4 = (3029200719 : BitVec 32).toNat ↔ ok = true)
        ∧ (enquiryOctets ok).take 8 = [1, 0, 7, 0, 0, 0, 0, 0])
    ∧ idKind (whole kRollcall true).ident = kRollcall ∧ Kind.ofCode (idKind (whole 11 true).ident) = some .enquiry
    ∧ live.bodyFault .enquiry (idRoute (whole 11 true).ident) [] = none ∧ live.busMode ≠ 2 := by decide +kernel

/-- The node with tenant 1 in a fault state. -/
def standing (f : FaultState) : State :=
  { live with desks := { live.desks with standing := live.desks.standing.set 1 { Standing.initial with fault := f } } }

theorem witness_AdmissionGivesDockets : (post 0).inlet = .channel .a ∧ (post 0).tenant = 1
    ∧ (Fuses.initial.tenants[(1 : Tenant)]).enable = false ∧ (live.fuses.tenants[(1 : Tenant)]).enable = true
    ∧ (let s := withJobs (List.replicate 14 (jobOf 5 (post 0) .orderWait))
       16 - 2 ≤ s.dockets 1)
    ∧ (let s := withJobs (List.replicate 13 (jobOf 5 (post 0) .orderWait))
       s.dockets 1 < 16 - 2)
    ∧ (∀ f, f = .healthy ∨ f = .cautioned ∨ f = .suspended ∨ f = .recalling →
        ((standing f).desks.standing[(1 : Tenant)]).fault = f)
    ∧ (standing .healthy).dockets 1 < 16 - 2 ∧ (standing .healthy).desks.overtaken (post 0) = []
    ∧ (standing .healthy).desks.cycle = []
    ∧ (∀ t : Tenant, t = 0 ∨ t = 2 →
       let m := letter t 1 (post 0).body
       let x := jobOf 5 m .sealWait
       let s := withJobs [x]
       let d := { s.desks with cycle := [5] }
       d.cycle = [x.id] ∧ d.jobs = [] ++ [x] ∧ x.letter = some m ∧ d.order = [] ++ [x.id] ∧ x.id ∉ ([] : List Nat)
        ∧ d.overtaken (post 0) = [] ∧ s.dockets 1 < 16 - 2 ∧ (s.desks.standing[(1 : Tenant)]).fault = .healthy)
    ∧ (1 : Tenant).val < (2 : Tenant).val ∧ (0 : Tenant).val < (1 : Tenant).val := by
  refine ⟨by decide, by decide, by decide, by decide, by decide, by decide, fun f h => ?_, by decide, by decide, by decide,
    fun t h => by rcases h with rfl | rfl <;> decide, by decide, by decide⟩
  rcases h with rfl | rfl | rfl | rfl <;> decide

/-- Error-passive by TEC, and Silent, receivers hear frames. -/
theorem witness_channelHears :
    (withA fun x => { x with st := .errorPassive, tec := 200 }).channelHears .a
    ∧ (withA fun x => { x with st := .silent }).channelHears .a ∧ live.channelHears .a
    ∧ ({ classicalNode with chanA := { live.chanA with st := .silent } } : State).channelHears .a
    ∧ (withA fun x => { x with st := .errorPassive, tec := 200 }).duplicate = false := by
  unfold State.channelHears State.channelReady
  decide

/-- A channel that matches, before its first and its second good frame. -/
theorem witness_matching : ∀ n ∈ [0, 1],
    let s : State := { classicalNode with chanA := { Channel.initial with st := .matching, goodFrames := n } }
    (s.chan .a).st = .matching ∧ (s.chan .a).settling = false ∧ (frame []).fd = true ∧ s.classical = true
      ∧ s.shutting = false ∧ (n = 0 → (s.chan .a).goodFrames = 0) ∧ (n = 1 → 1 ≤ (s.chan .a).goodFrames)
      ∧ (let f : Frame := ⟨false, true, false, 5, [], false⟩
         f.fd = false ∧ f.remote = true) := by decide

/-- No context is left for tenant 0; and an open context beside as many others as leave it room, or none. -/
theorem witness_contexts :
    let f := frame []
    let other : Context := { ctx 1 true true header with ident := mkIdent 0 0 0 1 0 1 1, key := idKey (mkIdent 0 0 0 1 0 1 1) }
    let crowd := fun (n : Nat) (l : List Context) => withA fun c => { c with ctxs := List.replicate n other ++ l }
    (((crowd 32 []).chan .a).hasContext 0 false = false ∧ ((crowd 32 []).chan .a).hasBuffer 0 false = true
      ∧ ((crowd 32 []).chan .a).openCtx (idKey f.ident) = none)
    ∧ (let s := crowd 0 [ctx 1 true false header]
       (s.chan .a).openCtx (idKey f.ident) = some (ctx 1 true false header) ∧ (ctx 1 true false header).dropping = false
        ∧ idKind (ctx 1 true false header).ident ≠ kRollcall ∧ ([7] : List Byte).length < 8
        ∧ (s.chan .a).hasBuffer 0 false = true)
    ∧ (let y := { ctx 1 true false header with dropping := true }
       let s := crowd 0 [y]
       let gone := s.setChan .a { s.chan .a with ctxs := (s.chan .a).ctxs.filter fun z => !(z.key = idKey f.ident && !z.complete) }
       (gone.chan .a).hasContext 0 false = true)
    ∧ (let y := { ctx 1 true false header with dropping := true }
       let s := crowd 32 [y]
       let gone := s.setChan .a { s.chan .a with ctxs := (s.chan .a).ctxs.filter fun z => !(z.key = idKey f.ident && !z.complete) }
       (s.chan .a).openCtx (idKey f.ident) = some y ∧ (s.chan .a).hasBuffer 0 false = true
        ∧ (gone.chan .a).hasContext 0 false = false)
    ∧ (∀ lost, let y := { ctx 1 true false header with lost := lost, dropping := !lost }
       (y.lost = true ∨ y.dropping = true) ∧ ((crowd 0 [y]).chan .a).openCtx (idKey f.ident) = some y
        ∧ ((crowd 0 [y]).chan .a).hasBuffer 0 false = true ∧ idKind y.ident ≠ kRollcall)
    ∧ ((0x02 : Byte).getLsbD 7 = false ∧ (0x02 : Byte).getLsbD 6 = false ∧ (0x42 : Byte).getLsbD 7 = false
        ∧ (0x42 : Byte).getLsbD 6 = true ∧ (0x42 : Byte).toNat % 64 ≠ (1 : BitVec 6).toNat) := by decide

/-- A letter and the render granted after it in one core cycle. -/
def lateRender : Desks :=
  { live.desks with jobs := [jobOf 5 (post 0) .walkWait, Job.new 6 (.render 0) none .orderWait 1], order := [5, 6], cycle := [5, 6] }

theorem witness_renders_first : (Job.new 6 (.render 0) none .orderWait 1).kind = .render 0
    ∧ lateRender.order = [] ++ [5, 6] ∧ lateRender.cycle = [5, 6] ∧ 5 ∉ ([] : List Nat) ∧ 6 ∉ ([] : List Nat) ∧ 5 ≠ 6
    ∧ lateRender.unlettered 6 = true ∧ lateRender.unlettered 5 = false
    ∧ (State.newCycle { live with desks := lateRender } true).desks.order = [6, 5] := by decide

/-! ## Errors, recovery, roll call, transmission -/

theorem witness_ErrorCountsAndStates :
    (let s := withA fun x => { x with tec := 127, recErr := 127 }
     (s.chan .a).st = .errorActive ∧ (s.chan .a).tec ≤ 127 ∧ (s.chan .a).recErr ≤ 127 ∧ s.shutting = false
      ∧ s.tdcOn .a = false ∧ s.recallsRest = true ∧ (false && (s.chan .a).sendsRoll) = false)
    ∧ (let s : State := { live with setup := { live.setup with codes := live.setup.codes.set 2 (some 14) } }
       (s.chan .a).st = .errorActive ∧ s.tdcOn .a = true ∧ 1275 < 1276 ∧ 1275 ≤ 1275)
    ∧ (∀ st, ((withA fun x => { x with st := st }).chan .a).st = st) :=
  ⟨by decide, by decide, fun _ => rfl⟩

theorem witness_BusOffDeadAndLayUp :
    (let s := withA fun x => { x with st := .errorPassive, tec := 248, recErr := 127, entries := [40000, 40001] }
     (s.chan .a).st = .errorPassive ∧ 248 ≤ (s.chan .a).tec ∧ (s.chan .a).recErr ≤ 127 ∧ s.shutting = false
      ∧ s.mode = .active ∧ 2 ≤ ((s.chan .a).entries.filter fun e => s.clock.uptime ≤ e + 60000).length)
    ∧ (∀ m ∈ [Mode.coldStart, .quiet, .active], (inMode m).mode ≠ .watch ∧ (inMode m).shutting = false)
    ∧ (let s := withA fun x => { x with entries := [39999, 40001] }
       (s.chan .a).st = .errorActive ∧ (s.chan .a).settling = false ∧ s.mode = .active
        ∧ ((s.chan .a).entries.filter fun e => s.clock.uptime ≤ e + 60000).length < 2)
    ∧ (∀ st, ((withA fun x => { x with st := st }).chan .a).st = st) :=
  ⟨by decide, by decide, by decide, fun _ => rfl⟩

/-- Channel A in a state, in lay-up until now. -/
def chanIn (st : ChanState) : State := withA fun x => { x with st := st, layUpEnd := some 100000 }

theorem witness_ChannelsComeBack : live.mode ≠ .watch ∧ ((chanIn .busOff).chan .a).st = .busOff
    ∧ (let x := (chanIn .integrating).chan .a
       x.st = .integrating ∧ x.settling = false ∧ x.exception = false ∧ x.heldFrame = none)
    ∧ (chanIn .integrating).start.announced = true
    ∧ (let x := { (chanIn .integrating).chanA with heldFrame := some (frame []) }
       x.st = .integrating ∧ x.heldFrame = some (frame []))
    ∧ (let x := { (chanIn .integrating).chanA with exception := true, tec := 127, recErr := 127 }
       x.st = .integrating ∧ x.settling = false ∧ x.exception = true ∧ x.tec ≤ 127 ∧ x.recErr ≤ 127)
    ∧ live.listenOnly = false ∧ live.duplicate = false ∧ ((chanIn .dead).chan .a).st = .dead
    ∧ ((chanIn .laidUp).chan .a).st = .laidUp ∧ ((chanIn .laidUp).chan .a).layUpEnd = some 100000
    ∧ 100000 ≤ (chanIn .laidUp).clock.uptime := by decide

theorem witness_MatchingAndRollCallEnd :
    (let s := withA fun x => { x with st := .matching, trySince := 99900, goodFrames := 1 }
     (s.chan .a).st = .matching ∧ (s.chan .a).settling = false ∧ (s.chan .a).trySince + 100 ≤ s.clock.uptime
      ∧ (s.chan .a).goodFrames = 1 ∧ (⟨false, true, false, 5, [], false⟩ : Frame).remote = true)
    ∧ ((withA fun x => { x with st := .matching }).chan .a).goodFrames = 0
    ∧ (let f : Frame := ⟨true, false, false, mkIdent 0 0 0 1 0 1 0, [], false⟩
       f.fd = false ∧ f.remote = false ∧ f.ext = true ∧ idRoute f.ident ≠ 2 ∧ live.recallsRest = true)
    ∧ (let s := withA fun x => { x with roll := { x.roll with windowEnd := some 100000 } }
       let z := { s with start := { s.start with announced := false } }
       (s.chan .a).roll.windowEnd = some 100000 ∧ 100000 ≤ s.clock.uptime ∧ s.start.announced = true
        ∧ (z.chan .a).roll.windowEnd = some 100000 ∧ z.start.announced = false ∧ z.start.quickChecked = true
        ∧ z.busMode = 0 ∧ z.desks.tornDue = []) := by decide

theorem witness_FramesGoOut :
    (let s := withA fun x => { x with roll := { x.roll with delayEnd := some 10000000, nonce := some 7 } }
     s.shutting = false ∧ (s.chan .a).roll.delayEnd = some 10000000 ∧ (s.chan .a).roll.nonce = some 7
      ∧ 10000000 < 100 * (s.clock.uptime + 1) ∧ (s.chan .a).st = .errorActive ∧ (s.chan .a).bufs = []
      ∧ (s.chan .a).loading = [] ∧ s.classical = false)
    ∧ (let b : TxBuf := ⟨0, 3, 9, .receipt, [0xC0], true⟩
       let d : TxBuf := ⟨1, 4, 9, .receipt, [0xC0], true⟩
       let x := { live.chanA with bufs := [b, d], txSeq := 2 }
       x.st = .errorActive ∧ x.sending = none ∧ b ∈ x.sendable
        ∧ (∀ e ∈ x.sendable, b.ident.toNat < e.ident.toNat ∨ (b.ident = e.ident ∧ b.seq ≤ e.seq))
        ∧ ({ x with sending := some 0 } : Channel).bufs.find? (fun e => some e.seq = some 0) = some b
        ∧ ({ x with sending := some 0 } : Channel).sending.isSome = true ∧ x.tec ≤ 95 ∧ x.recErr ≤ 127
        ∧ b.seq < x.txSeq ∧ b.isLast = true ∧ idKind b.ident ≠ kRollcall ∧ idKind b.ident ≠ kNotice)
    ∧ (let b : TxBuf := ⟨0, 3, mkIdent 7 7 2 1 0 kRollcall 0, .receipt, [0xC0], true⟩
       let x := { rolling.chanA with bufs := [b], sending := some 0, roll := ⟨some 7, none, some 3, none, 0, false⟩ }
       x.bufs.find? (fun e => some e.seq = x.sending) = some b ∧ b.seq < x.txSeq ∧ b.isLast = true
        ∧ idKind b.ident ≠ kNotice ∧ x.roll.letter = some b.letter ∧ live.chanA.roll.letter ≠ some b.letter
        ∧ ({ b with isLast := false } : TxBuf).isLast = false) := by decide

/-! ## Courier ports and judging -/

/-- Port A in a phase of a transaction, bound to tenant 0. -/
def onPort (rx : RxPhase) : State :=
  { live with
    fuses := { live.fuses with tenants := live.fuses.tenants.set 0 { live.fuses.tenants[0] with port := some .a } }
    portA := { live.portA with csLow := true, rx := rx } }

/-- Octets 0x01 to 0x0B of the envelope of an ENQUIRY to node 1 from tenant 0. -/
def envelope : Vector Byte 11 := #v[0, 0, 0, 0xB0, 0x40, 0x00, 0x00, 8, 0, 0, 0]

/-- The CRC of that envelope with a bare ENQUIRY header in it. -/
theorem test_envelope_crc : crc32 ((0xA5 : Byte) :: envelope.toList ++ [1, 0, 7, 0, 0, 0, 0, 0]) = 3857698311 := by
  decide +kernel

/-- The envelope's letter and its CRC, sound or not. -/
def enquiryRest (ok : Bool) : List Byte :=
  [1, 0, 7, 0, 0, 0, 0, 0] ++ leBytes (3857698311 + if ok then 0 else 1) 4

theorem witness_CourierTransactionBegins :
    live.portA.csLow = false ∧ live.portA.live = true ∧ live.shutting = false ∧ live.setup.fuseen = false
    ∧ fusing.portA.csLow = false ∧ fusing.portA.live = true ∧ fusing.setup.fuseen = true
    ∧ fusing.shutting = false ∧ fusing.portB.csLow = false ∧ fusing.portB.live = true
    ∧ (closingTime false).shutting = true ∧ (closingTime false).portA.csLow = false ∧ (closingTime false).portA.live = true
    ∧ live.portA.shifting = none ∧ live.portA.receipts = [] ∧ live.portA.generals = []
    ∧ Courier.initial.live = false ∧ Courier.initial.csLow = false ∧ (onPort .fallen).portA.rx = .fallen ∧ (onPort .synced).portA.rx = .synced
    ∧ (0x01 : Byte) ≠ 0xA5 ∧ (0x01 : Byte) ≠ 0x00 ∧ (0x01 : Byte) ≠ 0xFF
    ∧ (onPort .synced).portHeld .a = false ∧ (onPort .synced).bound .a = some 0
    ∧ live.portHeld .a = true
    ∧ (onPort .synced).shelfTakes 0 ((leNat envelope.toList 7 4 + 63) / 64) = true
    ∧ (onPort .synced).shelfTakes 0 100000 = false := by decide

/-- Octets 0x01 to 0x0B of the envelope of a letter of four octets, and what follows them. -/
def shortEnvelope : Vector Byte 11 := #v[0, 0, 0, 0xB0, 0x40, 0x00, 0x00, 4, 0, 0, 0]
def shortRest : List Byte :=
  [1, 0, 7, 0] ++ leBytes (crc32 ((0xA5 : Byte) :: shortEnvelope.toList ++ [1, 0, 7, 0])).toNat 4

theorem witness_CourierTransactionEnds :
    live.portA.csLow = false
    ∧ (let s := onPort .ignoring
       s.portA.csLow = true ∧ s.portA.live = true ∧ s.shutting = false ∧ s.portA.shifting = none)
    ∧ (onPort .synced).portA.rx = .synced
    ∧ (∀ rx, (onPort rx).portA.rx = rx ∧ (onPort rx).portA.csLow = true ∧ (onPort rx).portA.live = true
        ∧ (onPort rx).portA.shifting = none ∧ (onPort rx).shutting = false
        ∧ ({ onPort rx with closing := true } : State).shutting = true)
    ∧ ({ (onPort .idle).portA with live := false } : Courier).live = false ∧ ([] : List Byte).length < leNat envelope.toList 7 4 + 4
    ∧ (enquiryRest true).length = leNat envelope.toList 7 4 + 4 ∧ 8 ≤ courierMax
    ∧ zeros envelope.toList 0 3 = true ∧ leNat envelope.toList 3 4 < 2 ^ 29
    ∧ (∀ ok, (leNat (enquiryRest ok) 8 4 = (3857698311 : BitVec 32).toNat ↔ ok = true)
        ∧ (enquiryRest ok).take 8 = [1, 0, 7, 0, 0, 0, 0, 0])
    ∧ (onPort (.lengthKnown envelope 1 false)).portHeld .a = false
    ∧ (leNat shortRest 4 4 = (crc32 ((0xA5 : Byte) :: shortEnvelope.toList ++ shortRest.take 4)).toNat
        ∧ leNat shortEnvelope.toList 7 4 = 4 ∧ 4 + 4 ≤ shortRest.length ∧ 4 ≤ (shortRest.take 4).length
        ∧ ¬ headerLen ≤ (shortRest.take 4).length)
    ∧ (let ident : BitVec 29 := BitVec.ofNat 29 (leNat envelope.toList 3 4)
       (idRoute ident).toNat < 2 ∧ Kind.ofCode (idKind ident) = some .enquiry)
    ∧ headerFault .enquiry ((enquiryRest true).take 8) = none
    ∧ ((enquiryRest true).take 8).length = hLetterLen ((enquiryRest true).take 8)
    ∧ live.bodyFault .enquiry 0 (bodyOf ((enquiryRest true).take 8)) = none
    ∧ (let x := { (onPort .ignoring).portA with shifting := some 4, so := [1, 2, 3], taken := 2 }
       x.csLow = true ∧ x.live = true ∧ x.shifting = some 4 ∧ x.rx = .ignoring
        ∧ x.so.length ≤ x.taken + [(0 : Byte)].length ∧ x.taken + ([] : List Byte).length < x.so.length) := by
  refine ⟨by decide, by decide, by decide, fun _ => ⟨rfl, rfl, rfl, rfl, rfl, rfl⟩, ?_⟩
  decide +kernel

theorem witness_OutcomesAndStrikes :
    (let j := jobOf 5 (post 0) .orderWait
     j.letter = some (post 0) ∧ j ∈ (withJobs [j]).desks.jobs)
    ∧ (∀ n, n = 0 ∨ n = 1 ∨ n = 2 → (let x : Standing := { Standing.initial with fault := .cautioned, strikes := n }
        x.fault = .cautioned ∧ x.strikes = n ∧ n ≤ 2))
    ∧ ((standing .suspended).desks.standing[(1 : Tenant)]).fault = .suspended ∧ (1 : Tenant) ≠ 0 := by
  refine ⟨by decide, fun n h => ?_, by decide, by decide⟩
  rcases h with rfl | rfl | rfl <;> decide

/-- One letter of tenant `t` at the seal check, or at the walk. -/
def judging (t : Tenant) (k : BitVec 5) (body : List Byte) (st : JobState) : State :=
  withJobs [jobOf 5 (letter t k body) st]

/-- A READING body of tenant 1: INTERVAL 60 s, zeros else. -/
def reading : List Byte := [0, 0, 0, 0, 0, 0, 60, 0] ++ List.replicate 36 0

/-- The node whose tenants need seals, tenant 1 under key slot 0. -/
def sealing (s : State) : State :=
  { s with fuses := { s.fuses with
      tenants := Vector.replicate 32 { TenantCfg.disabled with enable := true, rights := 0xFF, sealReq := true }
      keys := Vector.replicate 8 (some (List.replicate 32 0)) } }

/-- An ENQUIRY from tenant 1 with its seal: counter `c` and the given tag. -/
def sealed' (c : Nat) (tag : List Byte) : Letter :=
  ⟨.channel .a, mkIdent 0 0 0 1 1 11 0, [1, 1, 7, 0, 0, 0, 0, 0] ++ leBytes c 6 ++ tag⟩

/-- The tag that the key gives it. -/
def goodTag (c : Nat) : List Byte := sealTag (List.replicate 32 0) true 1 1 11 0 [1, 1, 7, 0, 0, 0, 0, 0] c


/-- The seal check of a sealed letter finds its tag matching when it is the one that its key gives. -/
theorem seal_matches : (sealing live).tagMatches (sealed' 5 (goodTag 5)) = true := by
  have h1 : ∀ t, (sealed' 5 t).tenant = 1 := fun _ => by
    simp only [sealed', Letter.tenant]
    decide
  have hk : (sealing live).tenantKey 1 = some (List.replicate 32 0) := by decide +kernel
  have ht : ∀ t : List Byte, sealTagOf (sealed' 5 t).octets = t.take 8 := fun _ => rfl
  have hc : ∀ t : List Byte, sealCounter (sealed' 5 t).octets = 5 := fun t => by
    simp [sealCounter, sealed', hBodyLen, headerLen, leNat, octet, leBytes]
  have ho : ∀ t : List Byte, (sealed' 5 t).octets.take (headerLen + hBodyLen (sealed' 5 t).octets)
      = [1, 1, 7, 0, 0, 0, 0, 0] := fun _ => rfl
  have hn : ∀ t, (sealing live).sealNode (sealed' 5 t) = 1 := fun _ => by
    have : (sealing live).node = 1 := by decide +kernel
    simp only [State.sealNode, sealed', this]
    decide
  have hs : ∀ t, ((sealing live).sealTenant (sealed' 5 t)).val = 1 := fun _ => by
    simp only [State.sealTenant, State.owner, sealed', State.answerTenant, Letter.tenant]
    decide
  unfold State.tagMatches
  simp only [h1, hk, ht, hc, ho, hn, hs, goodTag, sealTag, List.take_take, Nat.min_self]
  exact decide_eq_true rfl

/-- The node with one job. -/
def one (s : State) (j : Job) : State := { s with desks := (withJobs [j]).desks }

/-- A store whose two counter rings have no page left. -/
def ringless : Store :=
  { Store.initial with retired := [ringABase, ringBBase].flatMap fun b => (List.range 8).map fun i => pageOf (b + 4096 * i) }

/-- Counter 1 inbound written twice in both rings: 6 and then 7. -/
def ringed : Store :=
  { Store.initial with mem := [ringABase, ringBBase].flatMap fun b =>
      [(b, 6), (b + 6, 1), (b + 8, 7), (b + 14, 1)] }

/-- A RECALL of tenant 1. -/
def recallBody : List Byte := [1, 0, 0, 0]

/-- A store whose rings' first pages are remapped, with counter 1 inbound at 7 on the spare pages and at 6 on the old ones. -/
def ringsRemapped : Store :=
  let e := [(pageOf ringABase, sparePage), (pageOf ringBBase, sparePage + 1)]
  { Store.initial with
    remap := e, remapA := e, remapB := e
    mem := [(ringABase, 6), (ringABase + 6, 1), (ringBBase, 6), (ringBBase + 6, 1), (4096 * sparePage, 7),
            (4096 * sparePage + 6, 1), (4096 * (sparePage + 1), 7), (4096 * (sparePage + 1) + 6, 1)] }

/-- R113: with both copies of the remap table lost the counter does not fall back to 6. -/
theorem test_counter_after_remap_loss : ringsRemapped.counter 1 false = some 7
    ∧ ringsRemapped.tableLost.counter 1 false = none ∧ ringsRemapped.tableLost.counter 2 false = some 0 := by decide +kernel

theorem witness_SealCheckJudges :
    (let j := jobOf 5 (letter 1 11 []) .sealWait
     (one live j).judges = true ∧ (one live j).sealNext = some j ∧ (letter 1 11 []).isSealed = false
      ∧ ((one live j).fuses.tenants[(1 : Tenant)]).sealReq = false ∧ (one live j).fuses.evaluated = false
      ∧ ((one (sealing live) j).fuses.tenants[(1 : Tenant)]).sealReq = true
      ∧ (letter 1 11 []).kind ≠ some .reading ∧ (letter 1 3 reading).kind = some .reading)
    ∧ (let j := jobOf 5 (sealed' 5 []) .sealWait
       (one live j).sealNext = some j ∧ (sealed' 5 []).isSealed = true ∧ live.tagMatches (sealed' 5 []) = false)
    ∧ (sealing live).store.counter 1 false = some 0 ∧ sealCounter (sealed' 0 []).octets ≤ 0
    ∧ 0 < sealCounter (sealed' 5 []).octets ∧ sealCounter (sealed' 5 []).octets < 2 ^ 48 - 1
    ∧ ringless.counter 1 false = none
    ∧ (live.store.plain 40 = true ∧ live.store.bad = [] ∧ live.store.counter 1 false = some 0 ∧ 0 ≤ 5
        ∧ live.store.ringKept ringABase (ringTag 1 false) (live.store.ringA % 4096) = false
        ∧ live.store.ringKept ringBBase (ringTag 1 false) (live.store.ringB % 4096) = false)
    -- the counter's newest word is lost in one ring, and in both
    ∧ ringed.counter 1 false = some 7 ∧ ({ ringed with bad := [ringABase + 8] } : Store).counter 1 false = some 7
    ∧ ({ ringed with bad := [ringABase + 8, ringBBase + 8] } : Store).counter 1 false = none
    ∧ Store.initial.tableLost.counter 1 false = some 0
    ∧ (let j := jobOf 5 (letter 1 3 reading) .sealWait
       let s := withJobs [jobOf 4 (letter 0 9 recallBody) .walkWait, j]
       s.judges = true ∧ s.sealNext = some j ∧ s.readingWaits j = true ∧ (one live j).readingWaits j = false
        ∧ (one live j).sealNext = some j)
    ∧ (live.fuses.tenants[(1 : Tenant)]).rights.getLsbD 2 = true
    ∧ (TenantCfg.disabled.rights).getLsbD 2 = false := by decide +kernel

/-- Box 3 mapped over the first hundred pixels by hundred of district 0, which every tenant owns. -/
def boxed (s : State) : State :=
  { s with
    store := { Store.initial with mem := [(boxBase + 52, 99), (boxBase + 54, 99), (boxBase + 57, 1)] }
    fuses := { s.fuses with districts := s.fuses.districts.set 0 (some ⟨⟨0, 0, 799, 599⟩, 0xFFFFFFFF, false⟩) } }

/-- The same with district 0 of tenant 0 alone. -/
def boxedAlone (s : State) : State :=
  { boxed s with fuses := { s.fuses with
      districts := s.fuses.districts.set 0 (some ⟨⟨0, 0, 799, 599⟩, 1, false⟩) } }

theorem witness_walk_tests : 0xFFF0 ≤ 0xFFF0 ∧ (0xFFEF < 0xFFF0 ∧ 4096 ≤ 4096)
    ∧ (boxed live).store.boxBad 3 = false ∧ (boxed live).store.boxState 3 = 1 ∧ (boxed live).store.boxState 4 ≠ 1
    ∧ live.district 0 = none ∧ ((boxed live).district 0).map (·.owners) = some 0xFFFFFFFF
    ∧ ((boxedAlone live).district 0).map (fun d => d.owners.getLsbD 1) = some false
    ∧ (let d : District := ⟨⟨0, 0, 799, 599⟩, 0xFFFFFFFF, false⟩
       let s : State := { boxed live with setup := { live.setup with codes := live.setup.codes.set 5 (some 0) } }
       (boxed live).clippedInside ⟨0, 0, 99, 99⟩ d = true ∧ s.clippedInside ⟨0, 560, 99, 599⟩ d = true
        ∧ s.clearOfSystem ⟨0, 560, 99, 599⟩ = false
        ∧ (boxed live).clippedInside ⟨0, 0, 99, 99⟩ ⟨⟨0, 0, 49, 49⟩, 0xFFFFFFFF, false⟩ = false
        ∧ (boxed live).clearOfSystem ⟨0, 0, 99, 99⟩ = true ∧ 99 < 95 + 10 - 1
        ∧ (boxed live).tile = some ⟨0, 0, 799, 599⟩
        ∧ (⟨795, 0, 804, 9⟩ : Rect).inside ⟨0, 0, 799, 599⟩ = false) := by decide

/-- A MAP of box 4 in district 0, from tenant 1. -/
def mapBody : List Byte := [4, 0, 0, 0, 0, 0, 0, 0, 9, 0, 9, 0, 0, 0, 0, 0]

/-- A MAP that unmaps box 3. -/
def unmapBody : List Byte := [3, 0, 0, 1] ++ List.replicate 12 0

/-- The state in which a letter is walked, its turn taken and no word of the store to repair. -/
def onTurn (s : State) (l : Letter) : State :=
  ({ s with desks := { s.desks with walkTurn := l.tenant } } : State).takeFindings false [] l.readsWord ⟨[], []⟩

theorem witness_PostsAndMapsAreWalkedInOrder :
    (let j := jobOf 5 (post 0) .walkWait
     (one (boxed live) j).judges = true ∧ (one (boxed live) j).walkNext = some j ∧ (post 0).kind = some .post)
    ∧ (let s := onTurn (one (boxed live) (jobOf 5 (post 0) .walkWait)) (post 0)
     s.permitted 1 .post = true
      ∧ s.tile.isSome = true ∧ s.walkFault 1 3 0 0 10 10 false false = none
      ∧ bBox (post 0).body = 3 ∧ postW (post 0).body = 10 ∧ s.onBoard (boxPlace (s.store.boxRect 3) 0 0 10 10) = some box10
      ∧ (box10.minusAll []).isEmpty = false ∧ s.settling = []
      ∧ (s.walkFault 1 3 95 0 10 10 false false).map (·.status) = some stOutside ∧ stOutside ≠ stUndeliverable
      ∧ s.onBoard (boxPlace ⟨800, 0, 899, 99⟩ 0 0 10 10) = none)
    ∧ (onTurn { one live (jobOf 5 (post 0) .walkWait) with fuses := Fuses.initial } (post 0)).permitted 1 .post = false
    ∧ (onTurn (one live (jobOf 5 (post 0) .walkWait)) (post 0)).walkFault 1 3 0 0 10 10 false false
        = some ⟨stUndeliverable, bBox (post 0).body⟩
    ∧ (let l := letter 1 4 unmapBody
       let s := onTurn (one (boxed live) (jobOf 5 l .walkWait)) l
       let z := onTurn (one live (jobOf 5 l .walkWait)) l
       mapOp unmapBody ≠ 0 ∧ s.mapFault 1 unmapBody = none ∧ s.store.boxState (bBox unmapBody) ≠ 0
        ∧ z.mapFault 1 unmapBody = none ∧ z.store.boxState (bBox unmapBody) = 0 ∧ z.store.boxBad (bBox unmapBody) = false
        ∧ ({ Store.initial with retired := [6144] } : Store).isRetired (boxBase + 16 * bBox unmapBody) = true)
    ∧ (let j := jobOf 5 (letter 1 4 mapBody) .walkWait
       let s := onTurn (one (boxed live) j) (letter 1 4 mapBody)
       (one (boxed live) j).walkNext = some j ∧ (letter 1 4 mapBody).kind = some .map ∧ s.permitted 1 .map = true
        ∧ s.mapFault 1 mapBody = none ∧ s.store.isRetired (boxBase + 16 * 4) = false ∧ mapOp mapBody = 0
        ∧ ((onTurn (one (boxedAlone live) j) (letter 1 4 mapBody)).mapFault 1 mapBody).map (·.status) = some stNotPermitted
        ∧ s.store.plain 40 = true ∧ bBox mapBody < 4096) := by decide

/-- The state in which a letter of kind `k` from tenant `t` is walked. -/
def walking (t : Tenant) (k : BitVec 5) (b : List Byte) : State :=
  onTurn (one (boxed live) (jobOf 5 (letter t k b) .walkWait)) (letter t k b)

/-- Bodies: a SUBSCRIBE with and without FAST, a PEEK of plane `p` over box 3, a RELEASE or a WEIGH
of tag 5. -/
def subBody (f : Byte) : List Byte := [1, 0, 0, 0, 0, 0, 0, 0, 1, 0, 0, 0, 0, 0, 0, 0, 2, f, 0, 0]
def peekBody (p : Byte) : List Byte := [p, 0, 3, 0, 0, 0, 0, 0, 10, 0, 10, 0]
def relBody (form : Byte) : List Byte := [5, 0, form, 0]

/-- The walk of each kind is due: the letter is next in `judges`, its kind and its right are as the statement wants. -/
def due (t : Tenant) (k : BitVec 5) (b : List Byte) (kind : Kind) : Bool :=
  let s := one (boxed live) (jobOf 5 (letter t k b) .walkWait)
  s.judges && decide (s.walkNext = some (jobOf 5 (letter t k b) .walkWait))
    && decide ((letter t k b).kind = some kind) && (walking t k b).permitted t kind

theorem witness_OtherKindsAreWalked :
    (due 1 5 (List.replicate 32 0) .stamp ∧ due 1 8 (subBody 0) .subscribe ∧ due 1 8 (subBody 1) .subscribe
      ∧ due 1 12 (List.replicate 8 0) .acknowledge ∧ due 0 9 recallBody .recall ∧ due 1 2 (peekBody 0) .peek
      ∧ due 1 2 (peekBody 2) .peek ∧ due 0 10 [] .waveset ∧ due 1 7 (relBody 0) .weigh ∧ due 1 6 (relBody 0) .release
      ∧ due 1 6 (relBody 1) .release ∧ due 1 11 [] .enquiry ∧ due 1 3 reading .reading)
    ∧ (subFlags (subBody 0)).testBit 0 = false ∧ (subFlags (subBody 1)).testBit 0 = true
    ∧ ((walking 1 8 (subBody 1)).fuses.tenants[(1 : Tenant)]).fastClass = false
    ∧ recallTarget recallBody = 1 ∧ (walking 0 9 recallBody).desks.recalls = []
    ∧ (let s := { walking 0 9 recallBody with desks := { (walking 0 9 recallBody).desks with recalls := [(1, [4])] } }
       (s.desks.recalls.any (·.1 = tenantOf (recallTarget recallBody))) = true)
    ∧ 1 ≤ recallTarget recallBody ∧ recallTarget recallBody ≤ 31
    ∧ (let i := { jobOf 5 (post 5) .staged with rect := some box10, tag := 5, started := true,
                                                parts := [⟨box10, .laned 3, [], 4⟩] }
       let r := jobOf 6 (letter 0 9 recallBody) .walkWait
       let s := withLane (withJobs [i, r]) 3 (lane .staged 5)
       (s.desks.jobs.filter fun k => k.tenant = some (tenantOf (recallTarget recallBody))) = [i]
        ∧ i.outcome = none ∧ s.unstartedStage i = true ∧ i.committed = true ∧ s.judges = true ∧ s.walkNext = some r
        ∧ s.mustSeal (s.owner (letter 0 9 recallBody)) = false ∧ s.mustSeal (s.owner (post 5)) = false
        ∧ s.desks.recalls = [] ∧ s.store.plain 30 = true)
    ∧ (let i := { jobOf 5 (post 5) .staged with rect := some box10, tag := 5, started := true }
       let r := jobOf 6 (letter 1 6 (relBody 0)) .walkWait
       (withJobs [i, r]).releasePosts r 1 5 = [5] ∧ (withJobs [i, r]).recallsRest = true)
    ∧ ({ Store.initial with retired := [pageOf waveBase] } : Store).waveRetired = true
    ∧ (TenantCfg.disabled.enable = false ∧ ((walking 0 9 recallBody).fuses.tenants[(1 : Tenant)]).enable = true)
    ∧ peekPlane (peekBody 0) ≠ 2 ∧ peekPlane (peekBody 2) = 2 ∧ (1 : Tenant) ≠ 0 ∧ peekLen (peekBody 0) ≤ 262144
    ∧ (walking 1 2 (peekBody 0)).walkFault 1 3 0 0 10 10 true false = none
    ∧ (walking 0 10 []).store.waveRetired = false
    ∧ (walking 1 7 (relBody 0)).mayWeigh = true ∧ (walking 1 7 (relBody 0)).energy.weighing = false
    ∧ relForm (relBody 0) ≠ 1 ∧ relForm (relBody 1) = 1
    ∧ (walking 1 6 (relBody 0)).releasePosts (jobOf 5 (letter 1 6 (relBody 0)) .walkWait) 1 5 = []
    ∧ (walking 1 11 []).fuses.evaluated = false := by decide +kernel

/-- A node whose store has been found damaged in some words. -/
def damaged (s : State) (lost fixed : List Nat) : State := { s with store := { Store.initial with unread := ⟨lost, fixed⟩ } }

/-- The seal check with no ring word damaged, with another word damaged, and with one of ring A. -/
theorem witness_seal_reads : live.store.intact ringOffset = true ∧ (damaged live [0] [8]).store.intact ringOffset = true
    ∧ (let s := damaged live [ringABase] []
       s.store.plain 40 = true ∧ s.store.bad = [] ∧ s.store.unread = ⟨[ringABase], []⟩ ∧ ringABase % 8 = 0
        ∧ ringOffset ringABase = true) := by decide +kernel

/-- A MAP of box `n` in district `d`, whose rectangle ends at `x`, from tenant 1. -/
def mapOf (n d x : Nat) : List Byte := leBytes n 2 ++ [BitVec.ofNat 8 d, 0] ++ leBytes 0 2 ++ leBytes 0 2 ++ leBytes x 2 ++ [9, 0, 0, 0, 0, 0]

theorem witness_map_tests :
    let s := boxed live
    let may := fun (d : District) => d.owners.getLsbD 1 && (!d.isShared || decide ((1 : Tenant) = 0))
    (0xFFF0 ≤ bBox (mapOf 0xFFF0 0 9) ∧ bBox (mapOf 4 0 9) < 0xFFF0 ∧ mapOp (mapOf 4 0 9) = 0 ∧ mapOp unmapBody ≠ 0)
    ∧ (s.store.boxBad 3 = false ∧ s.store.boxState 3 = 1 ∧ (s.district (s.store.boxDistrict 3)).map may = some true
        ∧ ((boxedAlone live).district (s.store.boxDistrict 3)).map may = some false)
    ∧ s.store.boxState 4 ≠ 1 ∧ s.district (mapDistrict (mapOf 4 1 9)) = none
    ∧ (s.district (mapDistrict (mapOf 4 0 9))).map may = some true
    ∧ ((boxedAlone live).district (mapDistrict (mapOf 4 0 9))).map may = some false
    -- the entry's district barred, the new one not
    ∧ (let z : State := { boxedAlone live with fuses := { (boxedAlone live).fuses with
         districts := (boxedAlone live).fuses.districts.set 1 (some ⟨⟨0, 0, 799, 599⟩, 2, false⟩) } }
       (z.district (mapDistrict (mapOf 3 1 9))).map may = some true ∧ (z.district (z.store.boxDistrict 3)).map may = some false)
    ∧ (let d : District := ⟨⟨0, 0, 49, 49⟩, 2, false⟩
       s.clippedInside (mapRect (mapOf 4 0 99)) d = false ∧ s.clippedInside (mapRect (mapOf 4 0 9)) d = true
        ∧ s.clearOfSystem (mapRect (mapOf 4 0 9)) = true)
    ∧ (let w : State := { s with setup := { live.setup with codes := live.setup.codes.set 5 (some 0) } }
       let b := leBytes 4 2 ++ [0, 0] ++ leBytes 0 2 ++ leBytes 560 2 ++ leBytes 99 2 ++ leBytes 599 2 ++ [0, 0, 0, 0]
       w.clippedInside (mapRect b) ⟨⟨0, 0, 799, 599⟩, 2, false⟩ = true ∧ w.clearOfSystem (mapRect b) = false) := by decide

/-- A POST that is walked on a node without a board. -/
theorem witness_boardless_post :
    let z := fun (s : State) => { s with setup := { s.setup with codes := s.setup.codes.set 4 (some 15) } }
    let s := z (one live (jobOf 5 (post 0) .walkWait))
    s.judges = true ∧ s.walkNext = some (jobOf 5 (post 0) .walkWait) ∧ s.pclass = 15
      ∧ (onTurn s (post 0)).permitted 1 .post = true := by decide

/-! ## Energy -/

/-- A POST of tenant 1 in the Order wait, its rectangle on the board, mode 2. -/
def waiting (st : JobState) : Job := { jobOf 5 (post 0) st with rect := some box10, mode := 2 }

/-- A weigh-in of so many joules at an uptime. -/
def weighed (time joules : Nat) : WeighIn :=
  { time := time, eu := joules * 1000000000000000, cap := some (50000, 100), failed := false, v0 := 1500 }

/-- The node with a job, a weigh-in and VHOLD at 18 V. -/
def weighing (j : Job) (w : Option WeighIn) : State :=
  { one live j with energy := { live.energy with latest := w, vhold := 180000 } }

/-- The same with VHOLD at 4.5 V, below the guard voltage. -/
def drained : State :=
  { weighing (waiting .held) (some (weighed 98000 100)) with
    energy := { live.energy with latest := some (weighed 98000 100), vhold := 45000 } }

theorem witness_EarmarksAreAskedFor :
    (let j := waiting .orderWait
     let s := weighing j none
     s.mayWeigh = true ∧ s.start.rotated = true ∧ s.settling = [] ∧ s.desks.jobs.filter (·.id = 5) = [j]
      ∧ s.postAsks j = true ∧ j.started = false ∧ s.boardSize.isSome = true ∧ (s.modeLen j.mode).isSome = true
      ∧ s.modeLen 14 = none ∧ s.boardDisabled = false ∧ s.freshWeigh = false ∧ s.energy.weighing = false
      ∧ j.kind = .letter ∧ j.st = .orderWait ∧ j.heldSince = none ∧ (∀ x ∈ s.desks.jobs, x.id < s.desks.nextJob))
    ∧ (let j := waiting .orderWait
       let s := weighing j (some (weighed 98000 100))
       s.freshWeigh = true ∧ s.askers = [] ∧ s.energy.weighing = false ∧ s.boardDisabled = false
        ∧ (s.needOf 100 (20 + s.tailLen)).2 = 0 ∧ s.covers? (s.needOf 100 (20 + s.tailLen)).1 0 = true
        ∧ (weighing j (some (weighed 98000 0))).covers? (s.needOf 100 (20 + s.tailLen)).1 0 = false)
    ∧ (State.boardDisabled { weighing (waiting .orderWait) none with
        board := { live.board with loopOpen := true } } = true)
    ∧ (let s : State := { live with setup := { live.setup with codes := live.setup.codes.set 5 (some 0) }
                                    renders := live.renders.set 32 { Render.initial with pending := true } }
       ∃ r, s.tileRect 32 = some r ∧ (s.renders[(32 : Fin 33)]).pending = true ∧ s.renderBusy 32 = false
        ∧ s.allClaims + renderGranules r ≤ shelfGranules)
    ∧ (let s : State := { live with settling := [(3, 9)] }
       s.nextBlock = some (3, 9) ∧ (s.blockRect 3 9).isSome = true ∧ s.blockIdle 3 9 = true)
    ∧ (let s : State := { live with torn := [⟨3, box10, 1, 7⟩] }
       s.torn.find? (·.id = 3) = some ⟨3, box10, 1, 7⟩ ∧ s.cleanable ⟨3, box10, 1, 7⟩ = true)
    ∧ (let j := { waiting .orderWait with asked := some 0 }
       let s := weighing { waiting .held with earmark := some ⟨5, 0, 0, none, none⟩ } (some (weighed 70000 1))
       s.energy.weighing = false ∧ 70000 + 30000 ≤ s.clock.uptime ∧ (∃ x ∈ s.desks.jobs, x.earmark.isSome = true)
        ∧ 98000 + 2000 ≤ (weighing j none).clock.uptime
        ∧ ∃ x ∈ (weighing j none).desks.jobs, x.asked.isSome = true ∧ x.earmark = none)
    ∧ live.clock.uptime < 98001 + 2000
    ∧ (let s := weighing (waiting .held) (some (weighed 98000 100))
       s.energy.latest = some (weighed 98000 100) ∧ (weighed 98000 100).cap = some (50000, 100) ∧ s.guarded = false
        ∧ 10 * 8 < 88 ∧ s.energy.weighing = false
        ∧ (let r := { s with energy := { s.energy with weighing := true } }
           r.guarded = false ∧ r.energy.weighing = true ∧ r.mayWeigh = true)
        ∧ drained.guarded = true ∧ drained.mayWeigh = true) := by
  refine ⟨by decide +kernel, by decide +kernel, by decide, ⟨⟨0, 568, 799, 599⟩, by decide +kernel⟩, by decide +kernel,
    by decide +kernel, by decide, by decide, by decide +kernel⟩

/-- The node with a weigh-in running and these jobs. -/
def underWay (js : List Job) : State := { withJobs js with energy := { live.energy with weighing := true } }

/-- A POST that waits Held for its need. -/
def held (need : Nat) : Job :=
  { waiting .held with need := need, asked := some 0, heldSince := some 1000 }

/-- A WEIGH of tag 5 from tenant 1. -/
def weighJob : Job := { jobOf 6 (letter 1 7 (relBody 0)) .pendingEffect with asked := some 0 }

theorem witness_WeighInsEnd :
    ((underWay []).energy.weighing = true ∧ (underWay []).mayWeigh = true ∧ (underWay []).desks.recalls = []
      ∧ (underWay []).stagedEarmarks = [] ∧ (underWay []).askers = [])
    ∧ (45000 < 44 * 1500 ∧ 4096 < 4097)
    ∧ (let j := held 1000
       let s := underWay [j]
       s.stagedEarmarks = [] ∧ s.askers = [j] ∧ j.isPost = true ∧ j.started = false ∧ j.st = .held
        ∧ j.heldSince.isSome = true ∧ s.job? j.id = some j ∧ j.xneed = 0 ∧ j.kind = .letter
        ∧ (∀ x ∈ s.desks.jobs, ∀ y ∈ s.desks.jobs, x.id = y.id → x = y)
        ∧ s.floor + s.held + j.need ≤ 1000 * 1000000000000000 ∧ 0 < s.floor + s.held + j.need)
    ∧ (let s := underWay [weighJob]
       s.stagedEarmarks = [] ∧ s.askers = [weighJob] ∧ s.job? 6 = some weighJob
        ∧ weighJob.letter = some (letter 1 7 (relBody 0)) ∧ (letter 1 7 (relBody 0)).kind = some .weigh
        ∧ (s.weighed 1 5).posts = [] ∧ relTag (letter 1 7 (relBody 0)).body = 5 ∧ s.boardDisabled = false
        ∧ s.chargerBarred = false)
    ∧ (let j := { waiting .staged with tag := 5, started := true, parts := [⟨box10, .laned 3, [], 4⟩]
                                       earmark := some ⟨5, 0, 0, none, none⟩ }
       let s := withLane (underWay [j]) 3 (lane .staged 5)
       s.stagedEarmarks = [j] ∧ s.askers = [] ∧ j.asked = none ∧ j.earmark = some ⟨5, 0, 0, none, none⟩
        ∧ 0 < s.floor + s.held ∧ s.floor + s.held ≤ 1000 * 1000000000000000)
    ∧ (let j := { held 1000 with started := true, released := true, st := .running }
       let s := underWay [j]
       s.stagedEarmarks = [] ∧ s.askers = [j] ∧ s.job? j.id = some j ∧ j.kind = .letter ∧ j.isPost = true
        ∧ j.started = true ∧ j.xneed = 0)
    ∧ (let p := { jobOf 5 (post 5) .staged with rect := some box10, mode := 2, tag := 5, started := true,
                                                parts := [⟨box10, .laned 3, [], 4⟩] }
       let s := withLane (underWay [p, weighJob]) 3 (lane .staged 5)
       s.stagedEarmarks = [] ∧ s.askers = [weighJob] ∧ (s.weighed 1 5).posts = [p] ∧ p.released = false
        ∧ s.boardDisabled = false ∧ s.chargerBarred = false
        ∧ State.chargerBarred { s with setup := { s.setup with chargerBarred := true } } = true) := by decide +kernel

theorem witness_EnergyTimersRunOut :
    (let j := { held 1 with heldSince := some 40000 }
     let s := one live j
     j ∈ s.desks.jobs ∧ j.isPost = true ∧ j.st = .held ∧ j.heldSince = some 40000 ∧ 40000 + 60000 ≤ s.clock.uptime
      ∧ s.energy.shortHeld = false ∧ s.recallsRest = true)
    ∧ (let s : State := { live with
         renders := live.renders.set 0 { Render.initial with pending := true, since := some 40000 } }
       (s.renders[(0 : Fin 33)]).pending = true ∧ (s.renders[(0 : Fin 33)]).waitNoted = false
        ∧ (s.renders[(0 : Fin 33)]).since = some 40000)
    ∧ ({ Render.initial with waitNoted := true } : Render).waitNoted = true
    ∧ (let e : Earmark := ⟨5, 0, 0, some (9, 1), some 100000⟩
       let j := { waiting .staged with earmark := some e }
       j ∈ (one live j).desks.jobs ∧ j.earmark = some e ∧ e.weigh = some (9, 1) ∧ e.expiry = some 100000
        ∧ 100000 ≤ live.clock.uptime)
    ∧ (let e : Earmark := ⟨5, 0, 0, none, some 100000⟩
       let j := { waiting .staged with earmark := some e }
       (one live j).job? 5 = some j ∧ e.weigh = none ∧ e.expiry = some 100000 ∧ live.clock.uptime < 100001) := by decide

/-- A POST that asks again from HELD with a mode that the set has not. -/
theorem witness_held_asks_again :
    let j := { waiting .held with mode := 14 }
    let s := weighing j none
    s.start.rotated = true ∧ s.settling = [] ∧ s.desks.jobs.filter (·.id = 5) = [j] ∧ s.postAsks j = true
      ∧ j.started = false ∧ s.boardSize.isSome = true ∧ s.modeLen j.mode = none ∧ j.st = .held ∧ s.boardDisabled = false
      ∧ s.freshWeigh = false ∧ s.energy.weighing = false ∧ s.job? 5 = some j
      ∧ (let z := weighing { j with st := .orderWait } none
         z.postAsks { j with st := .orderWait } = true ∧ z.job? 5 = some { j with st := .orderWait }) := by decide +kernel

/-- Before their times the energy timers have something that waits. -/
theorem witness_timers_early :
    (let j := { held 1 with heldSince := some 40001 }
     let s := one live j
     s.desks.jobs = [j] ∧ j.isPost = true ∧ j.st = .held ∧ ∀ w, j.heldSince = some w → s.clock.uptime < w + 60000)
    ∧ (let s : State := { live with
         renders := live.renders.set 0 { Render.initial with pending := true, since := some 40001 } }
       ∀ w, (s.renders[(0 : Fin 33)]).since = some w → s.clock.uptime < w + 60000)
    ∧ (let e : Earmark := ⟨5, 0, 0, some (9, 1), some 100001⟩
       let j := { waiting .staged with earmark := some e }
       (one live j).desks.jobs = [j] ∧ j.earmark = some e ∧ e.weigh = some (9, 1) ∧ e.expiry = some 100001
        ∧ live.clock.uptime < 100001) := by
  refine ⟨⟨rfl, rfl, rfl, ?_⟩, ?_, by decide⟩
  · intro w h
    obtain rfl : 40001 = w := Option.some.inj h
    decide
  · intro s w h
    obtain rfl : 40001 = w := Option.some.inj h
    decide

/-! ## Commits, lanes, panel frames, write-backs, releases -/

/-- A POST with an earmark that may start copying. -/
def granted : Job := { waiting .committing with earmark := some ⟨1000, 0, 0, none, none⟩ }

theorem witness_PartsAreCopied :
    (let s := one live granted
     s.settling = [] ∧ s.desks.jobs.filter (·.id = 5) = [granted] ∧ granted.letter = some (post 0) ∧ (waiting .committing).earmark = none
      ∧ s.mayCopy granted = true ∧ granted.started = false ∧ granted.rect = some box10 ∧ s.boardSize.isSome = true
      ∧ (s.modeLen granted.mode).isSome = true
      ∧ s.divide granted (box10.minusAll granted.spared) = [⟨box10, .waiting, [], 0⟩] ∧ s.outsideSet box10 = none
      ∧ (State.outsideSet { s with rotation := some ⟨0, 0, [], 16 * 80⟩, dieTemp := 16 * 80 } box10).isSome = true)
    ∧ (let j := { granted with started := true, parts := [⟨box10, .waiting, [.round 9], 0⟩] }
       let s := one live j
       s.mayCopy j = true ∧ j.started = true ∧ s.partClear j ⟨box10, .waiting, [.round 9], 0⟩ = true
        ∧ s.divide j [box10] = [⟨box10, .waiting, [], 0⟩])
    ∧ (let s : State := { one live granted with torn := [⟨3, box10, 1, 7⟩] }
       (s.divide granted (box10.minusAll granted.spared)).all (fun q => q.waitOn ≠ []) = true)
    ∧ (let l : Letter := ⟨.channel .a, (post 0).ident, [1, 0, 6, 0] ++ (post 0).octets.drop 4⟩
       let x := { jobOf 4 l .orderWait with rect := some box10 }
       let s := withJobs [x, granted]
       x ∈ s.desks.jobs ∧ (∀ z ∈ s.desks.jobs, z.id = x.id → z = x) ∧ x.started = false ∧ x.outcome = none
        ∧ l.precedesPost (post 0) = true)
    ∧ (let s := one live copyingJob
       s.awake = true ∧ s.discharging = false ∧ copyingJob.parts = [] ++ copyingPart :: [] ∧ copyingPart.st = .copying
        ∧ copyingJob.withdrawn = none ∧ s.recallsRest = true ∧ s.store.plain 10 = true ∧ box10.x1 < 4096
        ∧ box10.y1 < 3072) := by decide +kernel

/-- A POST whose one part is copied and asks for a lane. -/
def copied (tag : BitVec 16) : Job :=
  { granted with started := true, tag := tag, parts := [⟨box10, .copied, [], 4⟩] }

theorem witness_LanesAreGrantedInOrder :
    (let s : State := { live with board := { live.board with lanes := Vector.replicate 64 (lane .running 1) } }
     s.settling = [] ∧ ∀ k : Fin 64, (s.board.lanes[k]).st ≠ .free)
    -- every lane ARMED, a part that asks, and the rails off 10 s after an HVGOOD timeout
    ∧ (let s : State := { one live (copied 0) with board := { live.board with
         lanes := Vector.replicate 64 (lane .armed 1), goodTimeout := some 90000 } }
       s.settling = [] ∧ s.board.rails = .off ∧ s.laneWaiters ≠ [] ∧ s.mayStart = true ∧ s.railsAllow = true
        ∧ s.boardSize.isSome = true ∧ 2 ≤ s.store.journalPages ∧ ∀ x ∈ s.desks.jobs, x.st ≠ .writing)
    ∧ live.laneWaiters = [] ∧ State.reset.start.rotated = false ∧ boardless.boardSize = none
    ∧ ({ Store.initial with retired := (List.range 199).map (journalPage + ·) } : Store).journalPages < 2
    ∧ (let j := copied 0
       let s := one live j
       s.settling = [] ∧ s.mayStart = true ∧ s.railsAllow = true ∧ s.boardSize.isSome = true ∧ 2 ≤ s.store.journalPages
        ∧ (∀ x ∈ s.desks.jobs, x.st ≠ .writing ∧ x.isCleaning = false) ∧ s.inOrder = [] ++ j :: []
        ∧ s.stagedWait j = false ∧ s.desks.jobs.filter (·.id = j.id) = [j] ∧ j.kind = .letter
        ∧ j.laneParts = [⟨box10, .copied, [], 4⟩] ∧ box10.raster box10 = true
        ∧ (s.board.lanes[(0 : Fin 64)]).st = .free ∧ s.board.rails = .off ∧ 200 ≤ 200 ∧ 200 < 201
        ∧ s.recallsRest = true
        ∧ (let r : State := { s with board := { s.board with rails := .on } }
           r.mayStart = true ∧ r.railsAllow = true ∧ r.board.rails ≠ .off)) := by decide +kernel

/-- The node with its rails on and lane 3 in a state. -/
def driving (j : Job) (st : LaneState) : State :=
  withLane { one live j with board := { live.board with rails := .on } } 3 (lane st 5)

theorem witness_PanelFramesDriveRounds : live.board.rails ≠ .on
    ∧ (let s := withLane boardless 3 (lane .armed 5)
       s.boardSize = none ∧ (s.board.lanes[(3 : Fin 64)]).st = .armed
        ∧ ∀ k : Fin 64, (s.board.lanes[k]).st ≠ .running ∧ (s.board.lanes[k]).st ≠ .tail)
    ∧ (let s := driving (copied 0) .running
       s.awake = true ∧ s.shutting = false ∧ s.clock.src = .pll ∧ s.board.rails = .on
        ∧ (∀ j ∈ s.desks.jobs, j.letterKind = some .release → j.released = false)
        ∧ (∀ k : Fin 64, (s.board.lanes[k]).st ≠ .armed) ∧ (s.board.lanes[(3 : Fin 64)]).st = .running
        ∧ (s.board.lanes[(3 : Fin 64)]).got ≠ [] ∧ s.recallsRest = true ∧ s.store.plain 0 = true
        ∧ (s.board.lanes[(3 : Fin 64)]).got.length = (s.board.lanes[(3 : Fin 64)]).rect.height
        ∧ (s.board.lanes[(3 : Fin 64)]).rect.x0 ≤ (s.board.lanes[(3 : Fin 64)]).rect.x1
        ∧ ((s.board.lanes[(3 : Fin 64)]).drives 4 4 = false ∧ s.board.framing = false)
        ∧ (let l := { s.board.lanes[(3 : Fin 64)] with got := List.replicate 10 1 }
           let r := withLane { s with board := { s.board with framing := true } } 3 l
           l.drives 4 4 = true ∧ r.board.framing = true ∧ r.board.blank = false
            ∧ (r.board.lanes[(3 : Fin 64)]).drives 4 4 = true
            ∧ (∀ i : Fin 64, i ≠ 3 → (r.board.lanes[i]).drives 4 4 = false) ∧ r.store.frozen 4 4 = false
            ∧ (r.board.lanes[(3 : Fin 64)]).dropped = [])
        ∧ (∀ o ∈ [bootBaseA] ++ [bootBaseB], inRegions [1, 2, 3, 9] (s.store.served o) = false))
    ∧ (let s := driving (copied 0) .armed
       (s.board.lanes[(3 : Fin 64)]).st = .armed
        ∧ s.desks.jobs.filter (·.id = (s.board.lanes[(3 : Fin 64)]).job) = [copied 0]
        ∧ (∀ k : Fin 64, k ≠ 3 → (s.board.lanes[k]).st = .free) ∧ (∀ g ∈ (s.board.lanes[(3 : Fin 64)]).got, g = 0)
        ∧ 0 < (s.modeLen (copied 0).mode).getD 0 ∧ (copied 0).kind = .letter ∧ (copied 0).earmark.isSome = true
        ∧ (State.outsideSet { s with rotation := some ⟨0, 0, [], 16 * 80⟩, dieTemp := 16 * 80 } box10).isSome = true)
    ∧ (let j := { copied 0 with kind := .settling 0 0, letter := none }
       let s := withLane { one live j with board := { live.board with rails := .on } } 3 (lane .armed 5)
       s.desks.jobs.filter (·.id = 5) = [j] ∧ j.kind = .settling 0 0 ∧ s.outsideSet box10 = none) := by decide +kernel

theorem witness_RoundsAreWrittenBack :
    (live.awake = true ∧ live.discharging = false ∧ (live.board.lanes[(3 : Fin 64)]).st ≠ .closing)
    ∧ (let j := { copied 0 with parts := [⟨box10, .laned 3, [], 4⟩] }
       let s := driving j .closing
       (s.board.lanes[(3 : Fin 64)]).st = .closing
        ∧ s.desks.jobs.filter (·.id = (s.board.lanes[(3 : Fin 64)]).job) = [j] ∧ s.desks.recalls = []
        ∧ s.store.plain 20 = true ∧ (s.board.lanes[(3 : Fin 64)]).rect.x1 < 4096 ∧ j.kind = .letter ∧ j.letter.isSome = true
        ∧ j.outcome = none ∧ (∀ p ∈ j.parts, p.st = .laned 3 ∨ p.st = .done) ∧ s.waves.spoilt = false
        ∧ (let z := { s with desks := { s.desks with recalls := [(1, [9])] } }
           z.desks.recalls = [(1, [9])] ∧ j.tenant = some 1 ∧ ∀ x ∈ z.desks.jobs, x.id = j.id)
        ∧ (let z := { s with waves := { s.waves with spoilt := true } }
           z.waves.spoilt = true ∧ ∀ k : Fin 64, k ≠ 3 → (z.board.lanes[k]).st.started = false))
    ∧ (∃ p ∈ [(⟨box10, .waiting, [], 4⟩ : Part)], p.st ≠ .laned 3 ∧ p.st ≠ .done)
    ∧ (let s : State := { live with store := { Store.initial with remapping := [(0, sparePage)] } }
       s.store.remapping = [(0, sparePage)] ∧ s.store.remap = [] ∧ s.store.remapStopped = false ∧ sparePage ≤ sparePage ∧ 0 ≠ sparePage
        ∧ s.recallsRest = true ∧ Memory.wf s.store.mem = true) := by decide +kernel

/-- A RELEASE of tag 5 from tenant 1, waiting for its instant. -/
def releaseJob : Job := jobOf 6 (letter 1 6 (relBody 0)) .pendingEffect

/-- A staged POST of tag 5 with an earmark of a WEIGH of tenant 1. -/
def staged : Job :=
  { copied 5 with st := .staged, letter := some (post 5), parts := [⟨box10, .laned 3, [], 4⟩]
                  earmark := some ⟨5, 0, 0, some (9, 1), some 100001⟩ }

/-- The node with both, and the POST's lane staged since `since`. -/
def releasing (p : Job) (all : Bool) (st : LaneState) (since : Nat) : State :=
  withLane { withJobs [p, releaseJob] with
    board := { live.board with rails := .on, releases := [⟨6, [5], all, [9]⟩] } } 3 { lane st 5 with stagedSince := since }

theorem witness_ReleasesStartRounds :
    live.board.releases = []
    ∧ (∀ all, let s := releasing staged all .staged 0
       s.awake = true ∧ s.shutting = false ∧ s.board.releases = [⟨6, [5], all, [9]⟩] ∧ s.job? 6 = some releaseJob
        ∧ releaseJob.letter = some (letter 1 6 (relBody 0)) ∧ (letter 1 6 (relBody 0)).kind = some .release
        ∧ s.job? 5 = some staged ∧ staged.walked = true ∧ staged.kind = .letter
        ∧ (staged.earmark.any fun e => e.expiry.all (s.clock.uptime < ·)) = true
        ∧ (s.board.lanes[(3 : Fin 64)]).st = .staged ∧ (s.board.lanes[(3 : Fin 64)]).job = 5
        ∧ (s.modeLen staged.mode).any (0 < ·) = true ∧ (s.board.lanes[(3 : Fin 64)]).got ≠ []
        ∧ (∀ g ∈ (s.board.lanes[(3 : Fin 64)]).got, g = 0) ∧ (∀ k : Fin 64, k ≠ 3 → (s.board.lanes[k]).st = .free)
        ∧ s.board.framing = false ∧ s.board.rails = .on ∧ s.clock.src = .pll
        ∧ s.allOrNonePosts 1 5 = [staged] ∧ staged.earmark.bind (·.weigh) = some (9, 1))
    ∧ (let s := releasing staged false .free 0
       (∀ k : Fin 64, (s.board.lanes[k]).st = .staged → (s.board.lanes[k]).job ≠ 5) ∧ s.askers = []
        ∧ s.allOrNonePosts 1 5 = [])
    ∧ (let p := { staged with earmark := some ⟨5, 0, 0, none, none⟩ }
       (releasing p true .staged 0).allOrNonePosts 1 5 = [p] ∧ p.earmark.bind (·.weigh) = none)
    ∧ (let s := { releasing staged false .staged 0 with clock := { live.clock with uptime := 300000 } }
       (s.board.lanes[(3 : Fin 64)]).st = .staged
        ∧ s.desks.jobs.filter (·.id = (s.board.lanes[(3 : Fin 64)]).job) = [staged] ∧ s.unstartedStage staged = true
        ∧ 0 + 300000 ≤ s.clock.uptime ∧ s.desks.recalls = [] ∧ s.store.plain (10 * staged.parts.length + 20) = true
        ∧ (∀ p ∈ staged.parts, p.rect.x1 < 4096 ∧ p.rect.y1 < 3072) ∧ s.clock.uptime < 1 + 300000) := by decide +kernel

/-- The second case of R372: a STAGED round without an earmark. -/
theorem witness_release_unearmarked :
    let p := { staged with earmark := none }
    let s := releasing p false .staged 0
    s.board.releases = [⟨6, [5], false, [9]⟩] ∧ s.job? p.id = some p ∧ p.walked = true ∧ p.earmark = none ∧ p.asked = none
        ∧ p.id ≠ releaseJob.id ∧ (s.board.lanes[(3 : Fin 64)]).st = .staged ∧ (s.board.lanes[(3 : Fin 64)]).job = p.id
        ∧ s.boardDisabled = false ∧ s.freshWeigh = false ∧ s.energy.weighing = false ∧ s.mayWeigh = true
        ∧ s.desks.recalls = [] ∧ s.boardSize.isSome = true := by decide +kernel

/-- R374, R347A: a scan cut in its fill line drove no row, so every row loses the frame; cut past row 4, the first five
keep it. -/
theorem test_cut_scan :
    let l := { lane .running 5 with got := List.replicate 10 1 }
    (l.cut 0).got = List.replicate 10 0 ∧ (l.cut 5).got = List.replicate 5 1 ++ List.replicate 5 0
    ∧ l.cut 3072 = l := by decide +kernel

/-- R379: an earmark that a later WEIGH made starts no round for an all-or-none RELEASE. -/
theorem test_weighed_by : staged.weighedBy [9] 1 0 = true ∧ staged.weighedBy [] 1 0 = false
    ∧ staged.weighedBy [9] 2 0 = false := by decide

/-- A round of the node's own over ten pixels by ten, copied and earmarked. -/
def tidying (k : JobKind) : Job :=
  { Job.new 5 k none .committing 0 with rect := some box10, started := true, parts := [⟨box10, .copied, [], 4⟩]
                                        earmark := some ⟨1000, 0, 0, none, none⟩ }

/-- The node with it, its rails on. -/
def tidyNode (k : JobKind) : State :=
  { live with board := { live.board with rails := .on }
              desks := { live.desks with jobs := [tidying k], order := [], nextJob := 100 } }

theorem witness_own_rounds_take_lanes :
    (∀ k ∈ [JobKind.cleaning 3, .settling 0 0], let s := tidyNode k
      let j := tidying k
      s.mayStart = true ∧ s.railsAllow = true ∧ s.board.rails ≠ .off ∧ s.boardSize.isSome = true
        ∧ 2 ≤ s.store.journalPages ∧ (∀ x ∈ s.desks.jobs, x.st ≠ .writing) ∧ j.tag = 0
        ∧ s.desks.jobs.filter (·.id = j.id) = [j] ∧ j.laneParts = [⟨box10, .copied, [], 4⟩]
        ∧ (s.board.lanes[(0 : Fin 64)]).st = .free ∧ s.settling = [] ∧ s.inOrder = [])
    ∧ (let s := tidyNode (.cleaning 3)
       s.desks.jobs.filter Job.isCleaning = tidying (.cleaning 3) :: []
        ∧ (∀ k : Fin 64, (s.board.lanes[k]).st = .free) ∧ (∀ x ∈ s.desks.jobs, x.isCleaning = true))
    ∧ (let s := tidyNode (.settling 0 0)
       s.desks.jobs.filter Job.isSettling = tidying (.settling 0 0) :: [] ∧ s.maySettle = true
        ∧ (∀ x ∈ s.desks.jobs, x.isCleaning = false))
    ∧ (let taken : Vector Lane 64 := Vector.ofFn fun i => if i = 0 ∨ i = 63 then Lane.empty else lane .running 1
       let s : State := { tidyNode (.settling 0 0) with board := { live.board with rails := .on, lanes := taken } }
       s.board.freeCount < 8 ∧ (s.board.lanes[(0 : Fin 64)]).st = .free)
    ∧ ({ tidyNode (.settling 0 0) with torn := [⟨3, box10, 1, 7⟩] } : State).cleaningOwed = true
    -- a cleaning round under a lane, and beside one
    ∧ (let s := withLane (tidyNode (.cleaning 3)) 0 (lane .running 1)
       (s.board.lanes[(0 : Fin 64)]).st ≠ .free ∧ (s.board.lanes[(0 : Fin 64)]).rect.overlaps box10 = true
        ∧ s.desks.order = [] ∧ ∀ x ∈ s.desks.jobs, x.isCleaning = true)
    ∧ (let s := withLane (tidyNode (.cleaning 3)) 0 { lane .running 1 with rect := ⟨20, 20, 29, 29⟩ }
       ∀ k : Fin 64, (s.board.lanes[k]).st ≠ .free → (s.board.lanes[k]).rect.overlaps box10 = false) := by decide +kernel

/-- The words that a frame, a write-back and a remap copy read are sound; a word of the shown plane lies under a running
lane. -/
theorem witness_frame_reads :
    (let s := driving (copied 0) .running
     s.store.intact (s.frameReads s.starting) = true ∧ s.mayFrame = true ∧ s.store.unread = ⟨[], []⟩
      ∧ (s.board.lanes[(3 : Fin 64)]).st.framed = true ∧ (s.board.lanes[(3 : Fin 64)]).rect.contains 4 0 = true
      ∧ regionCode 0 = 1 ∧ s.store.served 0 = 0 ∧ wordRect 0 = some ⟨0, 0, 15, 0⟩
      ∧ regionCode targetBase = 2 ∧ s.store.served targetBase = targetBase ∧ wordRect targetBase = some ⟨0, 0, 15, 0⟩
      ∧ (⟨0, 0, 15, 0⟩ : Rect).contains 4 0 = true ∧ s.store.intact (s.writeBackReads box10) = true)
    ∧ (let s := damaged (driving (copied 0) .running) [ringABase] [2048 * 10]
       s.store.intact (s.frameReads s.starting) = true ∧ s.store.intact (s.writeBackReads box10) = true)
    ∧ ({ Store.initial with remapping := [(0, sparePage)] } : Store).intact
        (fun off => pageOf (({ Store.initial with remapping := [(0, sparePage)] } : Store).phys off) = 0) = true
    ∧ (let s := driving (copied 0) .running
       (s.board.lanes[(3 : Fin 64)]).st.started = true ∧ (s.board.lanes[(3 : Fin 64)]).kept = []
        ∧ (s.board.lanes[(3 : Fin 64)]).rect.contains 4 0 = true
        ∧ s.store.tableLost.ledger 4 0 = s.store.ledger 4 0) := by decide +kernel

/-- A plane word lost under a running round: its pixels are driven no more, and keep the values they were driven by. -/
theorem test_plane_word_lost :
    let s := driving (copied 0) .running
    let l := (s.dropPixels ⟨0, 0, 15, 0⟩ []).lanes[(3 : Fin 64)]
    l.dropped = [(⟨0, 0, 9, 0⟩, 0)] ∧ l.kept.length = 10 ∧ l.kept.head? = some (0, 0, 15, 15) := by decide +kernel

/-! ## Sensing, peeks, waveform sets -/

theorem witness_RotationsAreUsed :
    (live.clock.running = true ∧ live.rotationAt + 1000 ≤ live.clock.uptime ∧ live.awake = true ∧ (inMode .watch).mode = .watch ∧ live.recallsRest = true
      ∧ (∀ j ∈ live.desks.jobs, j.st ≠ .deferred))
    ∧ (let s : State := { live with
         setup := { live.setup with live := #v[none, none, none, none, some 26000, some 100000] } }
       s.setup.live[4] = some 26000 ∧ s.setup.live[5] = some 100000)
    ∧ (let s : State := { live with setup := { live.setup with codes := live.setup.codes.set 5 (some 0) }
                                    start := { live.start with rotated := false } }
       s.start.rotated = false ∧ s.drawsTiles = true ∧ s.tiles.length = 1)
    ∧ (let j := waiting .deferred
       let s := one live j
       s.desks.jobs = [j] ∧ j.isPost = true ∧ j.st = .deferred ∧ j.asked = none ∧ j.rect = some box10 ∧ s.awake = true ∧ s.shutting = false ∧ s.barred = false
        ∧ s.boardSize.isSome = true ∧ s.boardDisabled = false ∧ s.freshWeigh = false ∧ j.outcome = none)
    ∧ ((inMode .off).awake = false ∧ (inMode .off).mode ≠ .watch ∧ (inMode .off).clock.running = true)
    ∧ ({ live with rotationAt := 99001 } : State).clock.uptime < ({ live with rotationAt := 99001 } : State).rotationAt + 1000 := by decide +kernel

/-- A PEEK of plane `p` from tenant 1, walked. -/
def peekJob (p : Byte) : Job := { jobOf 6 (letter 1 2 (peekBody p)) .pendingEffect with rect := some box10 }

theorem witness_PeeksAreAnswered :
    (∀ p, p = 0 ∨ p = 2 → (let s := one live (peekJob p)
      s.judges = true ∧ s.job? 6 = some (peekJob p) ∧ (letter 1 2 (peekBody p)).kind = some .peek
        ∧ (peekJob p).rect = some box10 ∧ (peekJob p).st = .pendingEffect ∧ s.peekWaits (peekJob p) box10 = false
        ∧ (octet (letter 1 2 (peekBody p)).body 0).toNat = p.toNat))
    ∧ (let s := withJobs [waiting .orderWait, peekJob 0]
       s.peekWaits (peekJob 0) box10 = true) ∧ box10.contains 9 9 = true := by
  refine ⟨fun p h => ?_, by decide +kernel, by decide⟩
  rcases h with rfl | rfl <;> decide +kernel

/-- A WAVESET from tenant 0, its parcel of twelve octets only in name. -/
def waveJob (st : JobState) : Job := jobOf 7 (letter 0 10 [0, 0, 0, 0, 0, 0, 0, 0, 12, 0, 0, 0]) st

theorem witness_WavesetsAreInstalled :
    (let s := one live (waveJob .pendingEffect)
     s.awake = true ∧ s.shutting = false ∧ s.waveset .pendingEffect = some (waveJob .pendingEffect)
      ∧ s.waveset .writing = none ∧ (∀ k : Fin 64, (s.board.lanes[k]).st = .free) ∧ s.copying = false
      ∧ (∀ x ∈ s.desks.jobs, x.isPost = false) ∧ s.store.waveRetired = false)
    ∧ (∀ st ∈ [JobState.pendingEffect, .writing], let s := one { live with store := { Store.initial with retired := [pageOf waveBase] } } (waveJob st)
       s.waveset st = some (waveJob st) ∧ s.store.waveRetired = true)
    ∧ (let s := withJobs [waiting .orderWait, waveJob .pendingEffect]
       ∃ x ∈ s.desks.jobs, x.isPost = true ∧ x.outcome = none ∧ s.desks.before x.id 7 = true)
    ∧ (let s := one live (waveJob .writing)
       let p := (letter 0 10 [0, 0, 0, 0, 0, 0, 0, 0, 12, 0, 0, 0]).body
       s.waveset .writing = some (waveJob .writing) ∧ s.setup.known 4 = true ∧ s.pclass < 15
        ∧ leNat p 8 4 = p.length ∧ 12 ≤ p.length ∧ s.store.plain 10 = true ∧ p.length ≤ 2097152 ∧ s.desks.recalls = []
        ∧ s.waves.before = .none)
    ∧ (let s := one { live with waves := { live.waves with before := .rom 0 } } (waveJob .writing)
       let p := (letter 0 10 [0, 0, 0, 0, 0, 0, 0, 0, 12, 0, 0, 0]).body
       s.waves.before ≠ .none ∧ s.pclass < 14 ∧ setFrame .store p ≠ setFrame s.waves.before s.store.parcel)
    ∧ (let s : State := { live with setup := { live.setup with codes := live.setup.codes.set 4 (some 14) } }
       s.setup.known 4 = true ∧ 14 ≤ s.pclass) := by decide +kernel

/-! ## Deadlines, stamp, notices, TAP -/

/-- Tenant 1 with its standing. -/
def withStanding (x : Standing) : State :=
  { live with desks := { live.desks with standing := live.desks.standing.set 1 x } }

theorem witness_TenantTimesRunOut :
    (let r : Reading := { body := reading, time := none, stale := false, trend := [] }
     let s : State := { live with store := { Store.initial with readings := Store.initial.readings.set 1 (some r) }
                                  clock := { live.clock with uptime := 180000 } }
     s.counts = true ∧ s.store.readings[(1 : Tenant)] = some r ∧ s.mode ≠ .coldStart ∧ r.stale = false
      ∧ r.time.getD 0 + 1000 * (3 * rdInterval r.body * s.staleMult) = s.clock.uptime
      ∧ s.store.readings[(2 : Tenant)] = none)
    ∧ (let s := withStanding { Standing.initial with fault := .cautioned, cautionEnd := some 100000 }
       (s.desks.standing[(1 : Tenant)]).fault = .cautioned ∧ (s.desks.standing[(1 : Tenant)]).cautionEnd = some 100000
        ∧ 100000 ≤ s.clock.uptime ∧ s.clock.uptime < 100001)
    ∧ (let s := withStanding { Standing.initial with fault := .suspended, suspensionEnd := some 100000 }
       (s.desks.standing[(1 : Tenant)]).fault = .suspended
        ∧ (s.desks.standing[(1 : Tenant)]).suspensionEnd = some 100000) := by decide

/-- The node with its stamp driven. -/
def stamped : State := { live with stamp := { Stamp.initial with driven := true } }

theorem witness_TheStampAndItsRows :
    (live.start.fused = true ∧ live.stamp.driven = false ∧ stamped.counts = true ∧ stamped.stamp.driven = true
      ∧ stamped.stamp.fieldSecond = none)
    ∧ (let s : State := { stamped with stamp := { stamped.stamp with fieldSecond := some 100 } }
       s.stamp.fieldSecond = some (s.clock.uptime / 1000))
    ∧ (let s : State := { stamped with setup := { stamped.setup with unsorted := true,
                                                                     codes := stamped.setup.codes.set 0 none } }
       s.setup.unsorted = true ∧ s.setup.codes[(0 : Fin 13)] = none)
    ∧ stamped.fieldStatus = none ∧ stamped.ages = []
    ∧ (let r : Reading := { body := reading, time := some 40000, stale := false, trend := [] }
       let s : State := { stamped with
         setup := { stamped.setup with codes := stamped.setup.codes.set 5 (some 0) }
         store := { Store.initial with readings := Store.initial.readings.set 0 (some r) } }
       s.fieldStatus = none ∧ s.ages = [40000])
    ∧ (let s : State := { stamped with stamp := { stamped.stamp with
         fallback := stamped.stamp.fallback.set 3 (some (100000, true)) } }
       s.stamp.fallback[(3 : Fin 32)] = some (100000, true) ∧ 100000 ≤ s.clock.uptime ∧ s.clock.uptime < 100001)
    ∧ (inMode .doze).mode = .doze ∧ stamped.stampBlank = false ∧ live.stampBlank = true ∧ stamped.segment 8 0 = false
    ∧ State.segment { stamped with stamp := { stamped.stamp with segs := Vector.replicate 32 1 } } 8 0 = true
    ∧ (let s : State := { live with setup := { live.setup with codes := live.setup.codes.set 5 (some 0) }
                                    idle := { live.idle with systemRowsAt := some 40000, systemRows := some (0xFF, 9) } }
       s.awake = true ∧ s.start.quickChecked = true ∧ s.drawsTiles = true ∧ s.idle.systemRowsAt = some 40000
        ∧ s.idle.systemRows = some (0xFF, 9) ∧ 40000 + 60000 ≤ s.clock.uptime ∧ s.clock.uptime < 40001 + 60000
        ∧ (0xFF, 9) ≠ (s.condition, s.clock.uptime / 3600000)) := by decide +kernel

/-- Tenant 1 subscribes source 9 at port A, and the source has counted twice. -/
def subscribed : State :=
  { live with desk := { live.desk with
      subs := live.desk.subs.set 1 { Subscription.initial with word := 0x200, inlet := some (.courier .a) }
      sources := live.desk.sources.set 9 { Source.initial with counter := 2, pending := true } } }

theorem witness_NoticesAreLoaded :
    (∀ k : Fin 64, (live.desk.sources[k]).pending = false)
    ∧ (subscribed.awake = true ∧ subscribed.shutting = false ∧ subscribed.start.inletsOpen = true
      ∧ subscribed.loadable 9 = some 1 ∧ (∀ i : Fin 64, i < 9 → subscribed.loadable i = none)
      ∧ subscribed.recallsRest = true ∧ (9 : Fin 64) ∉ followSources ∧ subscribed.mustSeal 1 = false
      ∧ (subscribed.desk.subs[(1 : Tenant)]).inlet = some (.courier .a))
    ∧ (let s : State := { subscribed with desk := { subscribed.desk with
         holdOff := subscribed.desk.holdOff.set 1 (some 100000) } }
       s.counts = true ∧ s.desk.holdOff[(1 : Fin 8)] = some 100000 ∧ 100000 ≤ s.clock.uptime ∧ s.clock.uptime < 100001)
    ∧ (let b : TxBuf := ⟨4, 9, mkIdent 3 0 2 1 1 kNotice 0, .general, [0xC0], true⟩
       let f : Flying := ⟨9, 9, 1, true, false, none, false⟩
       let s : State := { subscribed with
         chanA := { live.chanA with bufs := [b], sending := some 4, txSeq := 5 }
         desk := { subscribed.desk with flying := [f] } }
       s.shutting = false ∧ (s.chan .a).st = .errorActive ∧ (s.chan .a).tec ≤ 95 ∧ (s.chan .a).recErr ≤ 127
        ∧ (s.chan .a).bufs.find? (fun b => some b.seq = (s.chan .a).sending) = some b ∧ b.isLast = true
        ∧ idKind b.ident = kNotice ∧ s.desk.flying.filter (·.letter = b.letter) = [f] ∧ s.mode ≠ .watch
        ∧ f.source ∉ followSources) := by decide +kernel

theorem witness_TheTestLock :
    (inMode .off).mode = .off ∧ live.mode ≠ .off ∧ live.mode ≠ .watch ∧ live.mode ≠ .doze ∧ live.pins.vio = true
    ∧ (let s : State := { live with fuses := { live.fuses with array := [(0x600, 7), (0x601, 0x38)] } }
       lifeOf s.fuses.byte ≠ .blank ∧ tlockReads s.fuses.byte = true ∧ s.pins.resetLow = false)
    ∧ tlockReads live.fuses.byte = false ∧ TapOp.idcode ≠ .other := by decide

/-! ## Outputs -/

/-- Table 9.1: the codes of eight pixels stand in one word of SD, the first in the low bits. -/
theorem test_sd_word : sdWord (fun x => if x = 8 then 1 else if x = 15 then 2 else 0) 1 = 0x8001 := by decide

/-- Table 9.3: a line of 100 SDCK cycles of data latches at cycles 106 to 107 and releases the outputs at 110. -/
theorem test_line : (106, LinkEvent.sdle true) ∈ lineEvents (fun _ => 0) 100 false
    ∧ (110, LinkEvent.gdoe true) ∈ lineEvents (fun _ => 0) 100 false ∧ lineCycles 800 = 124 := by decide

/-- Table 12.7: a lit segment sees V_LCD at its own common, an unlit one a third of it. -/
theorem test_stamp_levels :
    (let s := { stamped with stamp := { stamped.stamp with segs := Vector.replicate 32 1 } }
     s.across 8 0 0 false = 3 ∧ s.across 8 0 0 true = -3) ∧ stamped.across 8 0 0 false = 1
      ∧ live.comLevel 0 0 false = some 0 := by decide +kernel

/-- Table 4.7, R649: the standby outputs and GDDIR of a running node, and of one held in reset. -/
theorem test_levels : live.standby .a = .low ∧ live.standby .b = .high ∧ live.gddir = .high
    ∧ (inMode .inReset).gddir = .low ∧ (inMode .off).gddir = .pullDown ∧ State.reset.gddir = .low := by decide

/-- R34, R597: what an open input reads. R654, Table 16.4: the pins of a cold start that is held, the thermistor inputs under
TGRID 0, and a converter that runs on in reset. -/
theorem test_pins : InputPin.logicStrap.reads none = false ∧ InputPin.wakeDoze.reads none = true
    ∧ (let s : State := { inMode .coldStart with start := { live.start with held := true } }
       s.pinColumn = .reset ∧ s.stampLoopMeasured = false ∧ s.coreBuck = .on)
    ∧ (∀ n, State.thermistorConverted { live with setup := { live.setup with codes := live.setup.codes.set 8 (some 0) } } n
        = false)
    ∧ (State.thermistorConverted { live with setup := { live.setup with codes := live.setup.codes.set 8 (some 1) } } 0) = true
    ∧ (State.resetPin { live with energy := { live.energy with charger := .pulse } }).holdUpConverter = .on
    ∧ (inMode .off).hven = .pullDown ∧ (inMode .off).pull .crx = .open ∧ live.pull .crx = .up := by decide

/-! ## The whole machine -/

theorem witness_StepTakesTheFrontCommand :
    ({ live with pending := [.sealCheck, .noticeLoad] } : State).pending = [.sealCheck, .noticeLoad]
    ∧ live.pending = [] ∧ live.clock.running = true ∧ live.mode ≠ .off ∧ live.mode ≠ .inReset ∧ live.mode ≠ .doze := by
  decide

theorem witness_EveryStepAnswersSoundly : State.reset.canonical = true
    ∧ (∀ i : Fin 64, (State.reset.desk.sources[i]).counter ≤ 255)
    ∧ ∀ t : Tenant, (State.reset.desks.standing[t]).strikes ≤ 2 := by decide

theorem witness_WhatOnlyFewCommandsChange : exec (.chargerPulse 0) live = .next live ∧ live.canonical = true
    ∧ live.start.strapped = true ∧ fusing.fuses.bit 0x600 0 = true ∧ fusing.canonical = true :=
  ⟨rfl, by decide, by decide, by decide, by decide⟩

/-- A command in front runs first and leaves the queue; an idle step counts one millisecond. -/
theorem test_step : (match step { live with pending := [.chargerPulse 5000, .noticeLoad] } with
    | .next t => t.pending
    | _ => []) = [.noticeLoad] := by decide +kernel

theorem test_idle : (match step live with
    | .next t => t.clock.uptime
    | _ => 0) = 100001 := by decide +kernel

/-! ## The store and its recovery -/

/-- A store with one page near the threshold, and one that has just touched word 5 of page 7. -/
def worn : Store := { Store.initial with wear := [(7, ⟨4200, 0, [5]⟩)] }

/-- A count page that has been remapped, and a chain of counts that are due with the count of page 0 that it holds. -/
def chained : Store :=
  { Store.initial with
    remap := [(6180, 6912)]
    wear := [0, 6192, 6193, 6912].map fun p => (p, ⟨4096, 0, []⟩) }

/-- R627: the counts of all the pages of the chain are written. -/
theorem test_wear_chain :
    ∀ p ∈ [0, 6192, 6193, 6912], ((chained.wearCheck [0]).wearOf p).stored = 4096 := by decide +kernel

theorem witness_StoreWearsAndRemaps :
    ((worn.wearOf 7).touched = [5] ∧ (∃ x ∈ [5, 6], x ∈ (worn.wearOf 7).touched) ∧ (∀ x ∈ [6], x ∉ (worn.wearOf 7).touched))
    ∧ ({ worn with collapsed := true } : Store).collapsed = true
    ∧ (Memory.wf worn.mem = true ∧ worn.remap = [] ∧ worn.remapping = [] ∧ worn.retired = []
        ∧ (worn.wearOf 7).stored + 4096 ≤ (worn.wearOf 7).count ∧ (worn.wearOf 7).count < 9000000000
        ∧ pageOf (4096 * 6180 + 8 * 7) ≠ 7 ∧ ∀ e ∈ worn.wear, e.1 = 7)
    ∧ (Store.initial.freeSpares = 6912 :: Store.initial.freeSpares.tail ∧ Store.initial.remapStopped = false
        ∧ (let s : Store := { Store.initial with wear := [(7, ⟨9000000000, 9000000000, []⟩)] }
           (s.wearOf 7).count < (s.wearOf 7).stored + 4096 ∧ 9000000000 ≤ (s.wearOf 7).count)
        ∧ ({ Store.initial with retired := [pageOf (4096 * 6180)] } : Store).remapStopped = true
        ∧ ({ Store.initial with retired := [7] } : Store).isRetired (4096 * 7) = true)
    ∧ (live.store.plain 40 = true ∧ live.store.bad = [] ∧ live.store.isBad 8 = false)
    ∧ (let s : State := { live with store := { Store.initial with
         remapping := [(7, 6912)], retired := [pageOf (4096 * 6180)] } }
       s.awake = true ∧ s.discharging = false ∧ s.store.remapping = (7, 6912) :: [] ∧ s.store.remapStopped = true
        ∧ s.recallsRest = true)
    ∧ (regionCode 8 = 1 ∧ regionCode targetBase = 2 ∧ regionCode ledgerBase = 3 ∧ regionCode boxBase = 4
        ∧ regionCode waveBase = 9 ∧ regionCode (4096 * 6196) = 8 ∧ (4096 * 6196 - 4096 * 6196) / 128 = (0 : Tenant).val
        ∧ regionCode (4096 * 6180 + 8 * 7) = 7 ∧ regionCode (4096 * 6912) = 10)
    ∧ (live.boardSize = some (800, 600)
        ∧ Rect.clip (planeWordRect 8) ⟨0, 0, 799, 599⟩ = some ⟨16, 0, 31, 0⟩) := by decide +kernel

/-- A round of job 5 over ten pixels by ten in the journal: two frames begun, or all of them with two rows written back. -/
def torn5 (lastDone cleaning : Bool) : JRound :=
  { round := 4, job := 5, rect := box10, mode := 2, settling := false, cleaning := cleaning, tail := false, set := .rom 0,
    tgrid := 0, temps := ⟨1, 1, [0], 0⟩, frame := 2, lastDone := lastDone, rowsDone := 2 }

/-- Its POST, with one more part copied. -/
def post5 (ran : Bool) : JPost :=
  { job := 5, letter := post 0, copied := [⟨20, 0, 29, 9⟩], ran := ran, boot := 3 }

/-- A node before a quick check that a full check follows, with this in its journal. -/
def recovering (rs : List JRound) (ps : List JPost) (b : Option (Nat × List Byte)) : State :=
  { unchecked true with
    store := { Store.initial with rounds := rs, posts := ps, boxWrite := b }
    torn := [⟨1, box10, 1, 0⟩]
    chanA := { Channel.initial with st := .errorActive } }

theorem witness_RecoveryFollowsTheJournal :
    (∀ rs ps b, let s := recovering rs ps b
      s.mode = .coldStart ∧ s.clock.running = true ∧ s.start.fused = true ∧ s.start.quickChecked = false
      ∧ s.start.fullCheck = true ∧ s.setup.fuseen = false ∧ s.shutting = false ∧ s.discharging = false
      ∧ s.desks.recalls = [] ∧ s.store.remapA = [] ∧ s.store.remapB = [] ∧ s.store.bad = []
      ∧ s.store.rounds = rs ∧ s.store.posts = ps ∧ s.store.boxWrite = b)
    ∧ ((recovering [] [] none).rollsOver = false ∧ (recovering [] [] none).store.plain 200 = true)
    ∧ (List.replicate 16 (0 : Byte)).length = 16 ∧ box10.x1 < 4096 ∧ box10.y1 < 3072
    ∧ ((torn5 true false).lastDone = true ∧ (torn5 true false).settling = false
        ∧ (torn5 true false).rowsDone < (torn5 true false).rect.height
        ∧ (recovering [] [] none).torn.find? (·.rect = box10) = some ⟨1, box10, 1, 0⟩)
    ∧ ((post5 true).job = (torn5 false false).job ∧ (post5 true).ran = true ∧ (∀ r ∈ (post5 true).copied, r.x1 < 4096 ∧ r.y1 < 3072)
        ∧ (post5 true).copied.length ≤ 8 ∧ (torn5 false false).lastDone = false ∧ (torn5 false false).cleaning = false) :=
  ⟨fun _ _ _ => ⟨rfl, rfl, rfl, rfl, rfl, rfl, rfl, rfl, rfl, rfl, rfl, rfl, rfl, rfl, rfl⟩, by decide +kernel⟩

/-- One damaged word, one that can be corrected, and one that no read of the command meets. -/
theorem witness_damaged_words :
    (let s := damaged live [0] []
     s.store.unread = ⟨[0], []⟩ ∧ (fun o => decide (o = 0)) (s.store.served 0) = true)
    ∧ (let s := damaged live [] [8]
       s.store.plain 40 = true ∧ s.store.unread = ⟨[], [8]⟩ ∧ (fun o => decide (o = 8)) (s.store.served 8) = true
        ∧ s.store.isBad 8 = false)
    ∧ live.store.intact (fun _ => true) = true ∧ live.store.unread = ⟨[], []⟩
    ∧ (∀ o ∈ [ringABase] ++ [boxBase], inRegions [1, 2] (live.store.served o) = false)
    ∧ (List.replicate 8 (1 : Byte)).length = 8
    ∧ (({ Store.initial with unread := ⟨[8], []⟩ } : Store).put [(8, List.replicate 8 1)]).unread = ⟨[], []⟩
    ∧ (({ Store.initial with unread := ⟨[16], []⟩ } : Store).put [(8, List.replicate 8 1)]).unread = ⟨[16], []⟩
    ∧ (∀ a ∈ [bootBaseA, bootBaseB], let s := damaged (strapped false) [a] []
       s.clocked = true ∧ s.clock.src = .start ∧ s.clock.waking = false ∧ s.clock.running = false
        ∧ s.start.strapped = true ∧ s.setup.fuseen = false ∧ s.store.collapsed = false ∧ s.store.plain 40 = true
        ∧ s.store.bad = [] ∧ s.store.unread = ⟨[a], []⟩ ∧ s.recallsRest = true)
    ∧ (let s : Store := { Store.initial with remapping := [(7, 6912)], retired := [pageOf (4096 * 6180)] }
       s.intact (fun off => pageOf (s.phys off) = 7) = true)
    ∧ ∀ rs ps b, (recovering rs ps b).store.unread = ⟨[], []⟩ :=
  ⟨by decide +kernel, by decide +kernel, rfl, rfl, by decide +kernel, rfl, by decide +kernel, by decide +kernel,
   by decide +kernel, by decide +kernel, fun _ _ _ => rfl⟩

end Sys2Proof.Tests
end

section
/-! Admission (R257, R271): where a letter of a bus inlet takes its docket and its place, and what refuses it. -/
namespace Sys2Proof.Machine

/-! ## Putting an element late in a list -/

theorem insertLate_append {α : Type} {x : α} {kind : α → Bool} {os ls : List α} (hos : ∀ a ∈ os, kind a = false)
    (hls : ∀ a ∈ ls, kind a = true) : insertLate x kind (os ++ ls) = os ++ x :: ls := by
  have hstop : os.reverse.takeWhile kind = [] := by
    cases h : os.reverse with
    | nil => rfl
    | cons a as =>
      have ha : kind a = false := hos a (List.mem_reverse.mp (h ▸ List.mem_cons_self))
      exact List.takeWhile_cons_of_neg (Bool.eq_false_iff.mp ha)
  have htail : (os ++ ls).reverse.takeWhile kind = ls.reverse := by
    rw [List.reverse_append, List.takeWhile_append_of_pos (by simpa only [List.mem_reverse] using hls), hstop, List.append_nil]
  simp only [insertLate, htail, List.length_append, List.reverse_reverse, Nat.add_sub_cancel, List.take_left']

theorem insertLate_eq_concat {α : Type} {x : α} {kind : α → Bool} {l : List α} (h : ∀ a ∈ l, kind a = false) :
    insertLate x kind l = l ++ [x] := by
  simpa only [List.append_nil] using insertLate_append (x := x) (ls := []) h fun _ ha => nomatch ha

/-- Whatever the kind, the element is put between two parts of the list. -/
theorem insertLate_split {α : Type} (x : α) (kind : α → Bool) (l : List α) :
    ∃ os ls, l = os ++ ls ∧ insertLate x kind l = os ++ x :: ls := by
  obtain ⟨os, hos⟩ : (l.reverse.takeWhile kind).reverse <:+ l := by
    simpa only [List.reverse_reverse] using List.reverse_suffix.mpr (List.takeWhile_prefix kind (l := l.reverse))
  refine ⟨os, _, hos.symm, ?_⟩
  simp only [insertLate]
  generalize (l.reverse.takeWhile kind).reverse = ls at hos
  subst hos
  simp only [List.length_append, Nat.add_sub_cancel, List.take_left']

theorem mem_insertLate {α : Type} {a x : α} {kind : α → Bool} {l : List α} :
    a ∈ insertLate x kind l ↔ a = x ∨ a ∈ l := by
  obtain ⟨os, ls, hl, hins⟩ := insertLate_split x kind l
  rw [hins, hl]
  simp only [List.mem_append, List.mem_cons, or_left_comm]

/-! ## The order within a completion cycle -/

theorem cycleBefore_of_tenant_lt {l m : Letter} (h : l.tenant.val < m.tenant.val) : cycleBefore l m = true := by
  rw [cycleBefore, if_pos (Nat.ne_of_lt h)]
  exact decide_eq_true h

theorem cycleBefore_of_tenant_gt {l m : Letter} (h : m.tenant.val < l.tenant.val) : cycleBefore l m = false := by
  rw [cycleBefore, if_pos (Nat.ne_of_gt h)]
  exact decide_eq_false (Nat.lt_asymm h)

/-- The jobs of the running completion cycle whose letters come after `l` (R271). -/
def Desks.behind (d : Desks) (l : Letter) : List Nat :=
  d.cycle.filter fun i => match (d.jobs.find? (·.id = i)).bind (·.letter) with
    | some m => cycleBefore l m
    | none => false

theorem Desks.behind_of_cycle_nil {d : Desks} (l : Letter) (h : d.cycle = []) : d.behind l = [] := by
  rw [Desks.behind, h, List.filter_nil]

theorem Desks.behind_of_cycle_singleton {d : Desks} (l : Letter) {js : List Job} {x : Job} {m : Letter}
    (hcycle : d.cycle = [x.id]) (hjobs : d.jobs = js ++ [x]) (hids : ∀ y ∈ js, y.id ≠ x.id) (hm : x.letter = some m) :
    d.behind l = if cycleBefore l m then [x.id] else [] := by
  have hnone : js.find? (·.id = x.id) = none := by
    simpa only [List.find?_eq_none, decide_eq_true_eq] using hids
  have hx : d.jobs.find? (·.id = x.id) = some x := by
    rw [hjobs, List.find?_append, hnone, Option.none_or]
    exact List.find?_cons_of_pos (decide_eq_true rfl)
  simp only [Desks.behind, hcycle, List.filter_cons, List.filter_nil, hx, Option.bind_some, hm]

/-! ## The desk that gives the docket -/

/-- The job of a letter that takes its docket. -/
def Desks.docketed (d : Desks) (l : Letter) (claim : Nat) : Job :=
  { Job.new d.nextJob .letter (some l) .sealWait claim with spared := d.startedAfter l }

theorem Desks.grantDocket_jobs (d : Desks) (l : Letter) (claim : Nat) :
    (d.grantDocket l claim).jobs = insertLate (d.docketed l claim)
      (fun j => (d.behind l).contains j.id || (!(d.behind l).isEmpty && j.letter.isNone)) d.jobs := rfl

@[simp] theorem Desks.grantDocket_nextJob (d : Desks) (l : Letter) (claim : Nat) :
    (d.grantDocket l claim).nextJob = d.nextJob + 1 := rfl

@[simp] theorem Desks.grantDocket_cycle (d : Desks) (l : Letter) (claim : Nat) :
    (d.grantDocket l claim).cycle = d.cycle ++ [d.nextJob] := rfl

@[simp] theorem Desks.grantDocket_out (d : Desks) (l : Letter) (claim : Nat) : (d.grantDocket l claim).out = d.out := rfl

theorem Desks.mem_grantDocket_jobs {d : Desks} {l : Letter} {claim : Nat} {j : Job} :
    j ∈ (d.grantDocket l claim).jobs ↔ j = d.docketed l claim ∨ j ∈ d.jobs := by
  rw [Desks.grantDocket_jobs, mem_insertLate]

theorem Desks.grantDocket_jobs_of_cycle_nil {d : Desks} (l : Letter) (claim : Nat) (h : d.cycle = []) :
    (d.grantDocket l claim).jobs = d.jobs ++ [d.docketed l claim] := by
  rw [Desks.grantDocket_jobs]
  exact insertLate_eq_concat fun j _ => by rw [Desks.behind_of_cycle_nil l h]; rfl

/-- R273 moves no letter: R271 alone gives the place. -/
theorem Desks.grantDocket_order {d : Desks} {l : Letter} (claim : Nat) (h : d.overtaken l = []) :
    (d.grantDocket l claim).order = insertLate d.nextJob (d.behind l).contains d.order := by
  simp only [Desks.grantDocket, h]
  rfl

theorem Desks.grantDocket_order_last {d : Desks} {l : Letter} (claim : Nat) (h : d.overtaken l = [])
    (hbehind : d.behind l = []) : (d.grantDocket l claim).order = d.order ++ [d.nextJob] := by
  rw [Desks.grantDocket_order claim h, hbehind]
  exact insertLate_eq_concat fun _ _ => rfl

theorem Desks.grantDocket_order_ahead {d : Desks} {l : Letter} (claim : Nat) {os : List Nat} {i : Nat}
    (h : d.overtaken l = []) (hbehind : d.behind l = [i]) (horder : d.order = os ++ [i]) (hi : i ∉ os) :
    (d.grantDocket l claim).order = os ++ [d.nextJob, i] := by
  rw [Desks.grantDocket_order claim h, hbehind, horder]
  refine insertLate_append (fun a ha => ?_) fun a ha => List.contains_iff_mem.mpr ha
  have hai : a ∉ [i] := fun h => hi (List.mem_singleton.mp h ▸ ha)
  exact Bool.eq_false_iff.mpr (hai ∘ List.contains_iff_mem.mp)

/-! ## The tests of admission, for a letter of a bus inlet -/

/-- The dockets that a tenant may hold when a letter of this kind takes one more (R257). -/
abbrev State.docketLimit (s : State) (t : Tenant) (k : Kind) : Nat :=
  if k.express then (s.fuses.tenants[t]).quota else (s.fuses.tenants[t]).quota - 2

section
variable {s : State} {l : Letter} {c : Chan} (k : Kind) (claim : Nat)

theorem State.grantDocket_disabled (hin : l.inlet = .channel c) (hen : (s.fuses.tenants[l.tenant]).enable = false) :
    s.grantDocket l k claim = (s.notice srcDisabledSender l.tenant.val).refuse l ⟨stNotPermitted, 0⟩ := by
  simp only [State.grantDocket, hin, hen, Bool.not_false, Bool.false_eq_true, if_false, if_true]

variable (hin : l.inlet = .channel c) (hen : (s.fuses.tenants[l.tenant]).enable = true)
include hin hen

theorem State.grantDocket_quota (hfull : s.docketLimit l.tenant k ≤ s.dockets l.tenant) :
    s.grantDocket l k claim = s.refuse l ⟨stQuota, 1⟩ := by
  simp only [State.grantDocket, hin, hen, hfull, Bool.not_true, Bool.false_eq_true, if_false, if_true]

variable (hroom : s.dockets l.tenant < s.docketLimit l.tenant k)
include hroom

theorem State.grantDocket_suspended (hf : (s.desks.standing[l.tenant]).fault = .suspended) :
    s.grantDocket l k claim = s.refuse l ⟨stSuspended, 0⟩ := by
  simp only [State.grantDocket, hin, hen, Nat.not_le.mpr hroom, hf, Bool.not_true, Bool.false_eq_true, if_false]

theorem State.grantDocket_recalling (hf : (s.desks.standing[l.tenant]).fault = .recalling) :
    s.grantDocket l k claim = s.refuse l ⟨stRecalled, 0⟩ := by
  simp only [State.grantDocket, hin, hen, Nat.not_le.mpr hroom, hf, Bool.not_true, Bool.false_eq_true, if_false]

/-- The letter that passes takes its docket; the notice of R261 touches only a standing and the notice desk. -/
theorem State.grantDocket_passes
    (hf : (s.desks.standing[l.tenant]).fault = .healthy ∨ (s.desks.standing[l.tenant]).fault = .cautioned) :
    (s.grantDocket l k claim).store = s.store
      ∧ ∃ st, (s.grantDocket l k claim).desks = { s.desks.grantDocket l claim with standing := st } := by
  rcases hf with hf | hf <;>
  · simp only [State.grantDocket, hin, hen, Nat.not_le.mpr hroom, hf, Bool.not_true, Bool.false_eq_true, if_false]
    split <;> exact ⟨rfl, _, rfl⟩

end

/-- Settles O28: the refusals test by test in the order of Table 6.5; then the docket, whose place the letters of the
running cycle that come after it decide. -/
theorem admissionGivesDockets : Obligations.AdmissionGivesDockets := by
  intro s l k claim c hin
  refine ⟨State.grantDocket_disabled k claim hin, State.grantDocket_quota k claim hin,
    State.grantDocket_suspended k claim hin, State.grantDocket_recalling k claim hin, fun hen hroom hf => ?_⟩
  obtain ⟨hstore, st, hdesks⟩ := State.grantDocket_passes k claim hin hen hroom hf
  simp only [hdesks]
  refine ⟨⟨s.desks.docketed l claim, Desks.mem_grantDocket_jobs.mpr (.inl rfl), rfl, rfl, rfl, rfl, rfl,
      fun i hi => Desks.mem_grantDocket_jobs.mpr (.inr hi), Desks.grantDocket_jobs_of_cycle_nil l claim⟩,
    s.desks.grantDocket_nextJob l claim, s.desks.grantDocket_cycle l claim, hstore, s.desks.grantDocket_out l claim,
    fun hover => ⟨fun hcycle => Desks.grantDocket_order_last claim hover (Desks.behind_of_cycle_nil l hcycle), ?_⟩⟩
  intro js x os m hcycle hjobs hids hm horder hx
  have hbehind := Desks.behind_of_cycle_singleton l hcycle hjobs hids hm
  constructor
  · intro hlt
    rw [cycleBefore_of_tenant_lt hlt] at hbehind
    exact Desks.grantDocket_order_ahead claim hover hbehind horder hx
  · intro hgt
    rw [cycleBefore_of_tenant_gt hgt] at hbehind
    rw [Desks.grantDocket_order_last claim hover hbehind, horder, List.append_assoc]
    rfl

end Sys2Proof.Machine
end

section
/-! The die sensor (R676): what DIE_HOT does with a reading, by where it lies against the two thresholds. -/
namespace Sys2Proof.Machine

theorem dieLimit_eq : dieLimit = 16 * (if Config.variantX then 115 else 100) := by
  unfold dieLimit
  split <;> rfl

section
variable {s : State} {temp : Int}

/-- A reading that does not cross the threshold the sensor waits for, the limit while cool and the return while hot, is no
event in any mode. -/
theorem execDieHot_noCrossing (habove : s.dieHot = false → temp ≤ dieLimit)
    (hbelow : s.dieHot = true → dieLimit - 16 * 5 < temp) : execDieHot temp s = .next s := by
  have hnotAbove : ¬ (s.dieHot = false ∧ dieLimit < temp) := fun h => Int.not_lt.mpr (habove h.1) h.2
  have hnotBelow : ¬ (s.dieHot = true ∧ temp ≤ dieLimit - 16 * 5) := fun h => Int.not_le.mpr (hbelow h.1) h.2
  rw [execDieHot, if_neg hnotAbove, if_neg hnotBelow, ite_self]

variable (hoff : s.mode ≠ .off) (hreset : s.mode ≠ .inReset) (hdoze : s.mode ≠ .doze)
include hoff hreset hdoze

theorem execDieHot_above (hcool : s.dieHot = false) (htemp : dieLimit < temp) :
    execDieHot temp s = s.ends ({ s with dieHot := true }.notice srcDieHot (wholeDegrees temp + 256)) := by
  rw [execDieHot, if_neg (not_or.mpr ⟨hoff, not_or.mpr ⟨hreset, hdoze⟩⟩), if_pos ⟨hcool, htemp⟩]

theorem execDieHot_backBelow (hhot : s.dieHot = true) (htemp : temp ≤ dieLimit - 16 * 5) :
    execDieHot temp s = s.ends ({ s with dieHot := false }.notice srcDieHot (wholeDegrees temp)) := by
  have hnotCool : ¬ (s.dieHot = false ∧ dieLimit < temp) := fun h => Bool.noConfusion (hhot.symm.trans h.1)
  rw [execDieHot, if_neg (not_or.mpr ⟨hoff, not_or.mpr ⟨hreset, hdoze⟩⟩), if_neg hnotCool, if_pos ⟨hhot, htemp⟩]

end

/-- Settles O18: a crossing of either threshold flips the warning and raises its event before the follow-up; a reading
that crosses neither in the direction still due is no event. -/
theorem dieSensor : Obligations.DieSensor := by
  intro s temp limit hoff hreset hdoze
  have hlimit : dieLimit = 16 * limit := dieLimit_eq
  refine ⟨fun hcool htemp => ?_, fun hhot htemp => ?_, fun hcool htemp => ?_, fun hhot htemp => ?_⟩
  · exact gives_ends (execDieHot_above hoff hreset hdoze hcool (by omega)) fun _ => id
  · exact gives_ends (execDieHot_backBelow hoff hreset hdoze hhot (by omega)) fun _ => id
  · exact execDieHot_noCrossing (fun _ => by omega) (fun hhot => Bool.noConfusion (hhot.symm.trans hcool))
  · exact execDieHot_noCrossing (fun hcool => Bool.noConfusion (hhot.symm.trans hcool)) (fun _ => by omega)

end Sys2Proof.Machine
end
